-- ==== Sys2Proof/Word.lean ====
section
/-! DEFINITION. The widths of the RS1 command engine (spec/00_scope.md R7, R8): bytes of buffers and frames, 16-bit
counters and CRC16 values, 32-bit registers and response data, 64-bit command words. -/

namespace Sys2Proof

/-- A byte of the output buffer, a template or a frame (R7). -/
abbrev Byte := BitVec 8

/-- A 16-bit value: a sequence counter, `ACC16`, `OLEN`, `NFRAMES` (R7). -/
abbrev Half := BitVec 16

/-- A 32-bit value: `PARAM[k]`, `STATUS`, response data (R7). -/
abbrev Word := BitVec 32

/-- A 64-bit command word (R7, R90). -/
abbrev CommandWord := BitVec 64

end Sys2Proof
end

