-- ==== Sys2Proof/Syntax.lean ====
section
/-! DEFINITION. The commands of the RS1 command engine: one constructor per row of spec/opcode_table.json
(spec/30_encoding.md R95), with the operands its form gives it (R92). -/

namespace Sys2Proof

/-- A command, in the order of the opcode map (R95). A flag `a` is the append flag `A` of R93. -/
inductive Instr where
  /-- R230, form N. -/
  | nop
  /-- R231, form N. -/
  | clear
  /-- R232, form B: byte `b`. -/
  | push (b : Byte)
  /-- R233, form X: buffer index `i`. -/
  | readb (i : Half)
  /-- R234, form S: register number `r`. -/
  | read (r : Byte)
  /-- R235, form SI: parameter index `k`, value `v`. -/
  | setp (k : Byte) (v : Word)
  /-- R132, form N. -/
  | crc8Init
  /-- R133, form B. -/
  | crc8Update (b : Byte)
  /-- R134, form N. -/
  | crc16Init
  /-- R135, form B. -/
  | crc16Update (b : Byte)
  /-- R136, form N. -/
  | appendCrc16
  /-- R137, form N. -/
  | verifyCrc16
  /-- R180, form T: template identifier `id`, append flag `a`, counter value `c`. -/
  | build (id : Byte) (a : Bool) (c : Half)
  /-- R181, form AF. -/
  | buildTwist (a : Bool)
  /-- R182, form AF. -/
  | buildGimbal (a : Bool)
  /-- R183, form AC. -/
  | buildLed (a : Bool) (red green blue : Byte)
  /-- R184, form AF. -/
  | buildTouch (a : Bool)
  /-- R185, form AF. -/
  | buildBoot (a : Bool)
  /-- R202, form N. -/
  | split
  deriving DecidableEq, Repr

end Sys2Proof
end

