-- ==== Sys2Proof/WellFormed.lean ====
section
/-! DEFINITION. Which commands have a legal spelling: the two operand ranges of spec/30_encoding.md R94 (d) and (e).
Every other operand is a whole field, so every value of it is legal (R97); the identifier of BUILD is not
range-checked here (R94, R251). -/

namespace Sys2Proof

/-- The last register number of R38 (`INFO`). -/
abbrev lastRegister : Byte := 0x0B#8

/-- The last parameter index (R94 (e)). -/
abbrev lastParameter : Byte := 2#8

/-- The command is one that some command word spells. -/
def Instr.wf : Instr → Bool
  | .read r => r ≤ lastRegister
  | .setp k _ => k ≤ lastParameter
  | .nop | .clear | .push _ | .readb _ | .crc8Init | .crc8Update _ | .crc16Init | .crc16Update _
  | .appendCrc16 | .verifyCrc16 | .build _ _ _ | .buildTwist _ | .buildGimbal _ | .buildLed _ _ _ _
  | .buildTouch _ | .buildBoot _ | .split => true

end Sys2Proof
end

