-- ==== Sys2Proof/Decode.lean ====
section
/-! DEFINITION. The command word (spec/30_encoding.md R90 to R97): its fields, the operand forms, the decoder, total
on every 64-bit word and rejecting by name, and the encoder written from the same tables. -/

namespace Sys2Proof

/-! ### The fields of a command word (R91) -/

/-- `OPC = W[63:56]`. -/
def opcField (w : CommandWord) : Byte := w.extractLsb' 56 8

/-- `SEL = W[55:48]`. -/
def selField (w : CommandWord) : Byte := w.extractLsb' 48 8

/-- `FLG[7:1] = W[47:41]`, reserved. -/
def flgField (w : CommandWord) : BitVec 7 := w.extractLsb' 41 7

/-- `A = W[40]`. -/
def aFlag (w : CommandWord) : Bool := w.getLsbD 40

/-- `RSV = W[39:32]`, reserved. -/
def rsvField (w : CommandWord) : Byte := w.extractLsb' 32 8

/-- `IMM = W[31:0]`. -/
def immField (w : CommandWord) : Word := w.extractLsb' 0 32

/-! ### Operand forms (R92) -/

/-- The eight operand forms. -/
inductive Form where
  | n | b | x | s | si | t | af | ac
  deriving DecidableEq, Repr

/-- The form uses `SEL`. -/
def Form.usesSel : Form → Bool
  | .s | .si | .t => true
  | .n | .b | .x | .af | .ac => false

/-- The form uses `A`. -/
def Form.usesA : Form → Bool
  | .t | .af | .ac => true
  | .n | .b | .x | .s | .si => false

/-- How many low bits of `IMM` the form uses. -/
def Form.immWidth : Form → Nat
  | .n | .s | .af => 0
  | .b => 8
  | .x | .t => 16
  | .ac => 24
  | .si => 32

/-- No bit of `SEL`, `A` or `IMM` that the form does not use is set (R94 (c)). -/
def Form.unusedZero (f : Form) (w : CommandWord) : Bool :=
  (f.usesSel || selField w == 0#8) && (f.usesA || !aFlag w) && (immField w >>> f.immWidth == 0#32)

/-! ### The decoder -/

/-- Why a word fails decode; every reason is answered with `ILLEGAL_OP` (R94, R96). -/
inductive Reject where
  /-- R94 (a): `OPC` is not in the opcode map. -/
  | unassignedOpcode
  /-- R94 (b): `FLG[7:1]` or `RSV` is nonzero. -/
  | reservedNonzero
  /-- R94 (c): a bit the form does not use is set. -/
  | unusedNonzero
  /-- R94 (d), (e): READ of a register above 0x0B, SETP of an index above 2. -/
  | operandRange
  deriving DecidableEq, Repr

/-- The low byte of `IMM`: the operand `b` of form B and `red` of form AC (R92). -/
def immByte (w : CommandWord) : Byte := (immField w).extractLsb' 0 8

/-- `IMM[15:0]`: the index of form X and the counter value of form T (R92). -/
def immHalf (w : CommandWord) : Half := (immField w).extractLsb' 0 16

/-- `IMM[15:8]`: `green` of form AC. -/
def immGreen (w : CommandWord) : Byte := (immField w).extractLsb' 8 8

/-- `IMM[23:16]`: `blue` of form AC. -/
def immBlue (w : CommandWord) : Byte := (immField w).extractLsb' 16 8

/-- The opcode map (R95): the form of an opcode and how its operands are read from a word of it (R92, R97). -/
def opcodeRow : Nat → Option (Form × (CommandWord → Instr))
  | 0x00 => some (.n, fun _ => .nop)
  | 0x01 => some (.n, fun _ => .clear)
  | 0x02 => some (.b, fun w => .push (immByte w))
  | 0x03 => some (.x, fun w => .readb (immHalf w))
  | 0x04 => some (.s, fun w => .read (selField w))
  | 0x05 => some (.si, fun w => .setp (selField w) (immField w))
  | 0x10 => some (.n, fun _ => .crc8Init)
  | 0x11 => some (.b, fun w => .crc8Update (immByte w))
  | 0x12 => some (.n, fun _ => .crc16Init)
  | 0x13 => some (.b, fun w => .crc16Update (immByte w))
  | 0x14 => some (.n, fun _ => .appendCrc16)
  | 0x15 => some (.n, fun _ => .verifyCrc16)
  | 0x20 => some (.t, fun w => .build (selField w) (aFlag w) (immHalf w))
  | 0x21 => some (.af, fun w => .buildTwist (aFlag w))
  | 0x22 => some (.af, fun w => .buildGimbal (aFlag w))
  | 0x23 => some (.ac, fun w => .buildLed (aFlag w) (immByte w) (immGreen w) (immBlue w))
  | 0x24 => some (.af, fun w => .buildTouch (aFlag w))
  | 0x25 => some (.af, fun w => .buildBoot (aFlag w))
  | 0x30 => some (.n, fun _ => .split)
  | _ => none

/-- The decoder: the field checks of R94 and the operands of R92. -/
def decode (w : CommandWord) : Except Reject Instr :=
  match opcodeRow (opcField w).toNat with
  | none => .error .unassignedOpcode
  | some (form, operands) =>
    if flgField w ≠ 0#7 ∨ rsvField w ≠ 0#8 then .error .reservedNonzero
    else if form.unusedZero w then
      if (operands w).wf then .ok (operands w) else .error .operandRange
    else .error .unusedNonzero

/-- The host's reading of the decoder: a command word is a number (spec/20_memory.md R70), and every bit above `nbits`
is 0. -/
def decodeTableWord (nbits w : Nat) : Option Instr :=
  if w % 2 ^ nbits < 2 ^ 64 then (decode (BitVec.ofNat 64 (w % 2 ^ nbits))).toOption else none

/-! ### The encoder -/

/-- A command word from its fields, the reserved ones zero (R91). -/
def commandWord (opc sel : Byte) (a : Bool) (imm : Word) : CommandWord :=
  opc ++ sel ++ 0#7 ++ BitVec.ofBool a ++ 0#8 ++ imm

/-- The opcode of a command (R95). -/
def Instr.opcode : Instr → Byte
  | .nop => 0x00#8
  | .clear => 0x01#8
  | .push _ => 0x02#8
  | .readb _ => 0x03#8
  | .read _ => 0x04#8
  | .setp _ _ => 0x05#8
  | .crc8Init => 0x10#8
  | .crc8Update _ => 0x11#8
  | .crc16Init => 0x12#8
  | .crc16Update _ => 0x13#8
  | .appendCrc16 => 0x14#8
  | .verifyCrc16 => 0x15#8
  | .build _ _ _ => 0x20#8
  | .buildTwist _ => 0x21#8
  | .buildGimbal _ => 0x22#8
  | .buildLed _ _ _ _ => 0x23#8
  | .buildTouch _ => 0x24#8
  | .buildBoot _ => 0x25#8
  | .split => 0x30#8

/-- The word that spells a command (R91, R92, R95). -/
def encode (i : Instr) : CommandWord :=
  match i with
  | .nop | .clear | .crc8Init | .crc16Init | .appendCrc16 | .verifyCrc16 | .split =>
    commandWord i.opcode 0#8 false 0#32
  | .push b | .crc8Update b | .crc16Update b => commandWord i.opcode 0#8 false (b.setWidth 32)
  | .readb x => commandWord i.opcode 0#8 false (x.setWidth 32)
  | .read r => commandWord i.opcode r false 0#32
  | .setp k v => commandWord i.opcode k false v
  | .build id a c => commandWord i.opcode id a (c.setWidth 32)
  | .buildTwist a | .buildGimbal a | .buildTouch a | .buildBoot a => commandWord i.opcode 0#8 a 0#32
  | .buildLed a red green blue => commandWord i.opcode 0#8 a (0#8 ++ blue ++ green ++ red)

end Sys2Proof
end

