-- ==== Sys2Proof/Config.lean ====
section
/-! DEFINITION. The configuration of a block (spec/00_scope.md R6, spec/10_state.md R21): the record of the OPEN
parameters, which a model takes as an argument, and the two free values of `draw` (spec/00_scope.md R9,
spec/93_implementation_defined.md I1 to I3). The checks that admit a configuration are in Machine/Admission.lean. -/

namespace Sys2Proof

/-- The parameter tags of a template (spec/20_memory.md R60). -/
inductive ParamTag where
  | twist | pitchLo | pitchHi | yawLo | yawHi | red | green | blue
  deriving DecidableEq, Repr

/-- A template of the ROM (R60). `param` is a partial map from offsets to tags and `crc8` a set of offsets, each held
as a list without repeats (checked by `Config.TemplateShape`). -/
structure Template where
  /-- `L`, the length of the command the template builds, trailer included. -/
  len : Nat
  /-- The literal bytes of offsets 0 to `L - 3`. -/
  body : List Byte
  /-- The CRC8 marker offsets. -/
  crc8 : List Nat
  /-- Whether offsets 6 and 7 are the counter field. -/
  ctr : Bool
  /-- The parameter offsets and their tags. -/
  param : List (Nat × ParamTag)
  deriving DecidableEq, Repr

/-- The three 11-bit twist fields: `linear_x`, `linear_y`, `angular_z` (spec/41_command_builder.md R171). -/
inductive TwistField where
  | x | y | z
  deriving DecidableEq, Repr

/-- A slice `(f, s, w, d)` of the twist layout (R171): bits `s` to `s + w - 1` of field `f` go to bits `d` to
`d + w - 1` of the byte. -/
structure Slice where
  field : TwistField
  src : Nat
  width : Nat
  dst : Nat
  deriving DecidableEq, Repr

/-- A colour triple (spec/30_encoding.md R103). -/
structure Color where
  red : Byte
  green : Byte
  blue : Byte
  deriving DecidableEq, Repr

/-- The OPEN parameters of a block (R6). The list `templates` holds the template of identifier `i` at index `i`; an
identifier at or above its length is absent (R61). -/
structure Config where
  templates : List Template
  twistId : Nat
  gimbalId : Nat
  ledId : Nat
  /-- `TWIST_LAYOUT`: each twist offset with its slices (R171). -/
  twistLayout : List (Nat × List Slice)
  touchA : List Byte
  touchB : List Byte
  bootFirst : Nat
  bootLast : Nat
  bootLedColor : Color
  /-- `OBUF_CAP`. -/
  obufCap : Nat
  deriving DecidableEq, Repr

/-- FREE VALUE (spec/93_implementation_defined.md I1, I2): the `n`-th draw from `{0 .. 2047}`. Nothing is known of it,
so every draw is independent of the pattern, the field and every other draw (notes/assumptions/3.md). -/
opaque Config.freeTwist : Nat → BitVec 11

/-- FREE VALUE (I1, I3): the `n`-th draw from `{0 .. 65535}` (notes/assumptions/3.md). -/
opaque Config.freeGimbal : Nat → Half

end Sys2Proof
end

