-- ==== Sys2Proof/Machine/Constants.lean ====
section
/-! DEFINITION. The parameters whose value the spec fixes (spec/00_scope.md R6, marked "source" or "decided" there). -/

namespace Sys2Proof.Machine

/-- `N_TEMPLATES`: the identifiers are 0 to 37. -/
def nTemplates : Nat := 38

/-- `CRC8_SEED` (spec/40_checksum.md R130, spec/92_eei_decisions.md D9). -/
def crc8Seed : Byte := 0x77#8

/-- `CRC16_SEED` = 13970 (R131). -/
def crc16Seed : Half := 0x3692#16

/-- `CAN_ID`, a standard 11-bit identifier. -/
def canId : BitVec 29 := 0x201#29

/-- `FRAME_MAX`: the most bytes a frame carries. -/
def frameMax : Nat := 8

/-- `TELEM_PREFIX`. -/
def telemPrefix : List Byte := [0x55#8, 0x1B#8, 0x04#8, 0x75#8, 0x09#8, 0xC3#8]

/-- `COUNTER_RESET` (spec/92_eei_decisions.md D11). -/
def counterReset : Half := 0#16

/-- The offset of the low byte of a counter field (spec/30_encoding.md R100, R104). -/
def counterOffset : Nat := 6

end Sys2Proof.Machine
end

