-- ==== Sys2Proof/Machine/Admission.lean ====
section
/-! DEFINITION. Which configurations a block may be built from: the ranges of spec/00_scope.md R6, the template records
of spec/20_memory.md R60, the checks W1 to W10 of R62 and the checks L1 to L4 of spec/41_command_builder.md R172. A
configuration that fails one is refused (spec/70_reset_and_hazards.md R281, spec/93_implementation_defined.md I9):
`AdmittedConfig` holds none. -/

namespace Sys2Proof

/-- The trailer's two bytes lie behind the body: `L - 2` body offsets (R60; 0 where `L < 2`). -/
def Template.bodyLen (t : Template) : Nat := t.len - 2

/-- The tag of an offset, if it has one (R60). -/
def Template.tagAt (t : Template) (i : Nat) : Option ParamTag := t.param.lookup i

/-- `TEMPLATES(id)` (R61): absent at and above the end of the table. -/
def Config.template? (c : Config) (id : Nat) : Option Template := c.templates[id]?

/-- The twist offsets of the layout. -/
def Config.twistOffsets (c : Config) : List Nat := c.twistLayout.map (·.1)

/-- The identifiers of the boot range, in increasing order (spec/30_encoding.md R105). -/
def Config.bootIds (c : Config) : List Nat := List.range' c.bootFirst (c.bootLast + 1 - c.bootFirst)

/-- `TEMPLATES(id).L`, 0 where absent. -/
def Config.lenOf (c : Config) (id : Nat) : Nat := ((c.template? id).map Template.len).getD 0

/-- `BOOT_LEN` (spec/41_command_builder.md R186). -/
def Config.bootLen (c : Config) : Nat := (c.bootIds.map c.lenOf).sum + c.lenOf c.ledId

/-- The destination mask of a slice, `((1 << w) - 1) << d` (R171). -/
def Slice.mask (s : Slice) : Byte := ((1#8 <<< s.width) - 1#8) <<< s.dst

/-- A slice carries bit `b` of field `f`. -/
def Slice.carries (s : Slice) (f : TwistField) (b : Nat) : Bool :=
  s.field == f && decide (s.src ≤ b) && decide (b < s.src + s.width)

/-- Every slice of the layout. -/
def Config.slices (c : Config) : List Slice := (c.twistLayout.map (·.2)).flatten

/-- The table of R61: templates at exactly the identifiers 0 to 37. -/
abbrev Config.TableSize (c : Config) : Prop := c.templates.length = Machine.nTemplates

/-- The records of R60: `L` fits 16 bits, the body has `max(L - 2, 0)` bytes, and the set of markers and the map of
tags have no repeats. -/
abbrev Config.TemplateShape (c : Config) : Prop :=
  ∀ t ∈ c.templates, t.len ≤ 65535 ∧ t.body.length = t.bodyLen ∧ t.crc8.Nodup ∧ (t.param.map (·.1)).Nodup

/-- The ranges of R6: the touch arrays, the boot range, the buffer's capacity, which also holds the touch command (a
single build: notes/assumptions/5.md). -/
abbrev Config.Ranges (c : Config) : Prop :=
  c.touchA.length = 8 ∧ c.touchB.length ≤ 6 ∧ c.bootFirst ≤ c.bootLast ∧ c.bootLast < Machine.nTemplates ∧
    1 ≤ c.obufCap ∧ c.obufCap ≤ 65535 ∧ 10 + c.touchB.length ≤ c.obufCap

/-- W1: every template has `L >= 2`. -/
abbrev Config.W1 (c : Config) : Prop := ∀ t ∈ c.templates, 2 ≤ t.len

/-- W2: a counter field lies in the body. -/
abbrev Config.W2 (c : Config) : Prop := ∀ t ∈ c.templates, t.ctr = true → 8 ≤ t.bodyLen

/-- W3: markers and parameters lie in the body. -/
abbrev Config.W3 (c : Config) : Prop :=
  ∀ t ∈ c.templates, (∀ i ∈ t.crc8, i < t.bodyLen) ∧ ∀ p ∈ t.param, p.1 < t.bodyLen

/-- W4: the three family identifiers are present and distinct. -/
abbrev Config.W4 (c : Config) : Prop :=
  (c.template? c.twistId).isSome ∧ (c.template? c.gimbalId).isSome ∧ (c.template? c.ledId).isSome ∧
    c.twistId ≠ c.gimbalId ∧ c.twistId ≠ c.ledId ∧ c.gimbalId ≠ c.ledId

/-- W5: the twist template has only the tag `TWIST`, at exactly the layout's offsets. -/
abbrev Config.W5 (c : Config) : Prop :=
  ∀ t ∈ c.template? c.twistId, (∀ p ∈ t.param, p.2 = .twist ∧ p.1 ∈ c.twistOffsets) ∧
    ∀ i ∈ c.twistOffsets, t.tagAt i = some .twist

/-- W6: the gimbal template has each of its four tags at exactly one offset, and no other. A template whose `_HI` tag lies
below its `_LO` tag passes, for the spec's list has no check on their order, though R67 and N5 call little-endian within an
axis normative; its bytes then stand where the tags are (R173), the high one lower (DEDUCED: notes/assumptions/14.md). -/
abbrev Config.W6 (c : Config) : Prop :=
  ∀ t ∈ c.template? c.gimbalId, (t.param.map (·.2)).Perm [.pitchLo, .pitchHi, .yawLo, .yawHi]

/-- W7: the LED template has each of its three tags at exactly one offset, and no other. -/
abbrev Config.W7 (c : Config) : Prop :=
  ∀ t ∈ c.template? c.ledId, (t.param.map (·.2)).Perm [.red, .green, .blue]

/-- W8: every other template has an empty `param` map. -/
abbrev Config.W8 (c : Config) : Prop :=
  ∀ i < c.templates.length, i ≠ c.twistId → i ≠ c.gimbalId → i ≠ c.ledId →
    ∀ t ∈ c.template? i, t.param = []

/-- W9: the family templates have a counter field. -/
abbrev Config.W9 (c : Config) : Prop :=
  (∀ t ∈ c.template? c.twistId, t.ctr = true) ∧ (∀ t ∈ c.template? c.gimbalId, t.ctr = true) ∧
    ∀ t ∈ c.template? c.ledId, t.ctr = true

/-- W10: the buffer holds the longest command and the boot sequence. -/
abbrev Config.W10 (c : Config) : Prop := (∀ t ∈ c.templates, t.len ≤ c.obufCap) ∧ c.bootLen ≤ c.obufCap

/-- The slices of R171: inside the field and inside the byte; an offset stands once in the layout, since it is a
map. -/
abbrev Config.SliceShape (c : Config) : Prop :=
  c.twistOffsets.Nodup ∧ ∀ s ∈ c.slices, 1 ≤ s.width ∧ s.src + s.width ≤ 11 ∧ s.dst + s.width ≤ 8

/-- L1: the slices of one offset do not overlap. -/
abbrev Config.L1 (c : Config) : Prop :=
  ∀ e ∈ c.twistLayout, e.2.Pairwise fun a b => a.mask &&& b.mask = 0#8

/-- L2: each of the 33 field bits lies in exactly one slice of the layout. -/
abbrev Config.L2 (c : Config) : Prop :=
  ∀ f ∈ [TwistField.x, .y, .z], ∀ b < 11, (c.slices.countP fun s => s.carries f b) = 1

/-- L3: no role of higher priority hides a twist offset. -/
abbrev Config.L3 (c : Config) : Prop :=
  ∀ t ∈ c.template? c.twistId, ∀ i ∈ c.twistOffsets, i < t.bodyLen ∧ i ∉ t.crc8 ∧ i ≠ 6 ∧ i ≠ 7

/-- L4: the layout's offsets are exactly the `TWIST`-tagged offsets. -/
abbrev Config.L4 (c : Config) : Prop :=
  ∀ t ∈ c.template? c.twistId, (∀ i ∈ c.twistOffsets, (i, ParamTag.twist) ∈ t.param) ∧
    ∀ p ∈ t.param, p.2 = .twist → p.1 ∈ c.twistOffsets

/-- The template checks W1 to W10 (spec/20_memory.md R62) with the record and table shapes they rest on. -/
def Config.templatesAdmitted (c : Config) : Bool :=
  decide c.TableSize && decide c.TemplateShape && decide c.Ranges && decide c.W1 && decide c.W2 && decide c.W3 &&
    decide c.W4 && decide c.W5 && decide c.W6 && decide c.W7 && decide c.W8 && decide c.W9 && decide c.W10

/-- The layout checks L1 to L4 (spec/41_command_builder.md R172) with the slice shape of R171. -/
def Config.layoutAdmitted (c : Config) : Bool :=
  decide c.SliceShape && decide c.L1 && decide c.L2 && decide c.L3 && decide c.L4

/-- The configuration passes every check (R281). -/
def Config.admitted (c : Config) : Bool := c.templatesAdmitted && c.layoutAdmitted

/-- A configuration with the proof that it is admitted: "A model takes the configuration as an argument, together with
a proof" (I9). -/
abbrev AdmittedConfig := { c : Config // c.admitted = true }

end Sys2Proof
end

