-- ==== Sys2Proof/Machine/Example.lean ====
section
/-! DEFINITION. The configuration EX of spec/95_test_vectors.md section 2. EX is made up by the spec for its vectors: no
byte of it is the device's (spec/93_implementation_defined.md I13). `State.reset` is built from it, and no statement
rests on a value of it (notes/assumptions/1.md). -/

namespace Sys2Proof

/-- A template of EX: every one has the marker offset 3 and a counter field. -/
def exTemplate (body : List Byte) (param : List (Nat × ParamTag)) : Template :=
  { len := body.length + 2, body := body, crc8 := [3], ctr := true, param := param }

/-- Identifier 0, `L` = 14. -/
def exBody0 : List Byte :=
  [0x55, 0x0E, 0x04, 0x00, 0x09, 0xC3, 0x00, 0x00, 0x40, 0x04, 0x4C, 0x00]

/-- Identifier 1, `L` = 13. -/
def exBody1 : List Byte := [0x55, 0x0D, 0x04, 0x00, 0x09, 0xC3, 0x00, 0x00, 0x40, 0x04, 0x01]

/-- Identifier 2 (LED), `L` = 16. -/
def exBodyLed : List Byte :=
  [0x55, 0x10, 0x04, 0x00, 0x09, 0x18, 0x00, 0x00, 0x00, 0x3F, 0x32, 0x00, 0x00, 0x00]

/-- Identifier 3 (gimbal), `L` = 17. -/
def exBodyGimbal : List Byte :=
  [0x55, 0x11, 0x04, 0x00, 0x09, 0x04, 0x00, 0x00, 0x00, 0x04, 0x69, 0x00, 0x00, 0x00, 0x00]

/-- Identifier 4 (twist), `L` = 27. -/
def exBodyTwist : List Byte :=
  [0x55, 0x1B, 0x04, 0x00, 0x09, 0xC3, 0x00, 0x00, 0x00, 0x3F, 0x60, 0x00, 0x00] ++
    [0x00, 0x00, 0x00, 0x04, 0x00, 0x00, 0x00, 0x00, 0x00, 0x00, 0x00, 0x00]

/-- The template table of EX: identifiers 5 to 37 are copies of identifier 0. -/
def exTemplates : List Template :=
  [exTemplate exBody0 [], exTemplate exBody1 [],
    exTemplate exBodyLed [(11, .red), (12, .green), (13, .blue)],
    exTemplate exBodyGimbal [(11, .pitchLo), (12, .pitchHi), (13, .yawLo), (14, .yawHi)],
    exTemplate exBodyTwist [(12, .twist), (13, .twist), (14, .twist), (15, .twist), (16, .twist)]] ++
    List.replicate 33 (exTemplate exBody0 [])

/-- `TWIST_LAYOUT` of EX: X, Y, Z contiguous, least significant bit first, from bit 0 of offset 12. -/
def exTwistLayout : List (Nat × List Slice) :=
  [(12, [⟨.x, 0, 8, 0⟩]), (13, [⟨.x, 8, 3, 0⟩, ⟨.y, 0, 5, 3⟩]), (14, [⟨.y, 5, 6, 0⟩, ⟨.z, 0, 2, 6⟩]),
    (15, [⟨.z, 2, 8, 0⟩]), (16, [⟨.z, 10, 1, 0⟩])]

/-- EX as data. -/
def exConfig : Config :=
  { templates := exTemplates, twistId := 4, gimbalId := 3, ledId := 2, twistLayout := exTwistLayout,
    touchA := [0x55, 0x0E, 0x04, 0x66, 0x09, 0x03, 0x00, 0x00], touchB := [0xA0, 0x48, 0x08, 0x01],
    bootFirst := 0, bootLast := 1, bootLedColor := ⟨0xFF, 0xFF, 0xFF⟩, obufCap := 64 }

/-- EX passes every check (spec/95_test_vectors.md section 2). -/
theorem exConfig_admitted : exConfig.admitted = true := by decide +kernel

/-- EX as an admitted configuration. -/
def exAdmitted : AdmittedConfig := ⟨exConfig, exConfig_admitted⟩

end Sys2Proof
end

