-- ==== Sys2Proof/Machine/State.lean ====
section
/-! DEFINITION. The state of the RS1 command engine (spec/10_state.md R20 to R39), its inputs and outputs, the reasons a
step can stop, and the state after reset. -/

namespace Sys2Proof.Machine

/-- A CAN frame record: a frame of the TX stream (R33) or an inbound one (R34). `ide` is false for a standard
identifier and true for an extended one; `id` has 11 or 29 bits. -/
structure CanFrame where
  ide : Bool
  rtr : Bool
  id : BitVec 29
  dlc : Nat
  data : List Byte
  deriving DecidableEq, Repr

/-- The response to a command (R35). -/
structure Response where
  code : BitVec 4
  data : Word
  deriving DecidableEq, Repr

/-- What the outside gives the block at one step (R5, R20): the host a command word, or the receive environment an
inbound frame. -/
inductive Input where
  | command (w : CommandWord)
  | rx (f : CanFrame)
  deriving DecidableEq, Repr

/-- The state of the block. The fields from `ctrJoy` to `tx` are the architectural state, "exactly this list" (R22);
`OLEN` is the length of `obuf` (R28). The others are the model's own: the configuration, which no step writes (R21);
the inputs still to be delivered, in their order, and the responses given so far, oldest first (notes/assumptions/2.md);
and how many free values have been drawn (notes/assumptions/3.md). -/
structure State where
  /-- The configuration, admitted (R281). -/
  config : AdmittedConfig
  /-- `CTR[0]`, the `joy` counter (R23). -/
  ctrJoy : Half
  /-- `CTR[1]`, the `led` counter. -/
  ctrLed : Half
  /-- `CTR[2]`, the `gimbal` counter. -/
  ctrGimbal : Half
  /-- The CRC8 accumulator (R26). -/
  acc8 : Byte
  /-- The CRC16 accumulator (R27). -/
  acc16 : Half
  /-- The output buffer (R28). -/
  obuf : List Byte
  /-- `PARAM[0]` (R30). -/
  param0 : Word
  /-- `PARAM[1]`. -/
  param1 : Word
  /-- `PARAM[2]`. -/
  param2 : Word
  /-- `STATUS` (R29). -/
  status : Word
  /-- `NFRAMES` (R32). -/
  nframes : Half
  /-- The TX stream, oldest frame first (R33). -/
  tx : List CanFrame
  /-- The responses given so far, oldest first (R35). -/
  responses : List Response
  /-- The commands and RX events still to come, the next one first. -/
  inputs : List Input
  /-- How many free values have been drawn. -/
  draws : Nat
  deriving DecidableEq, Repr

/-- The block has no fault: an error is a result code and the block goes on (spec/60_exceptions.md R260), so no step
stops with one. -/
inductive Fault where
  deriving DecidableEq, Repr

/-- The reasons a step may be refused. -/
inductive Refusal where
  /-- Raised only by an arm of `exec` whose command has no meaning yet; no arm has it. Safe: the machine stops. -/
  | notModelled (mnemonic : String)
  deriving DecidableEq, Repr

/-- What a command or a step answers. -/
abbrev Result := Host.Outcome State Fault Refusal

/-- Reset (R39, spec/70_reset_and_hazards.md R280): "the constructor of the initial state from an admitted
configuration". -/
def State.resetWith (c : AdmittedConfig) : State :=
  { config := c, ctrJoy := counterReset, ctrLed := counterReset, ctrGimbal := counterReset,
    acc8 := crc8Seed, acc16 := crc16Seed, obuf := [], param0 := 0#32, param1 := 0#32, param2 := 0#32,
    status := 0#32, nframes := 0#16, tx := [], responses := [], inputs := [], draws := 0 }

/-- The block after reset under the spec's test configuration EX (DESIGN CHOICE: notes/assumptions/1.md). -/
def State.reset : State := State.resetWith exAdmitted

end Sys2Proof.Machine
end

