-- ==== Sys2Proof/Machine/Flags.lean ====
section
/-! DEFINITION. `STATUS` and the result codes (spec/10_state.md R29 and R36, spec/60_exceptions.md R250): the only flags
of the block. -/

namespace Sys2Proof.Machine

/-- The result codes of R250. -/
inductive ErrCode where
  | ok | illegalOp | commandNotFound | invalidCommandLength | bufferOverflow | indexRange
  deriving DecidableEq, Repr

/-- The number of a result code (R250). -/
def ErrCode.code : ErrCode → BitVec 4
  | .ok => 0#4
  | .illegalOp => 1#4
  | .commandNotFound => 2#4
  | .invalidCommandLength => 3#4
  | .bufferOverflow => 4#4
  | .indexRange => 5#4

/-- `STATUS.ERR`, bits 3:0 (R29). -/
def statusErr (st : Word) : BitVec 4 := st.extractLsb' 0 4

/-- `STATUS.V`, bit 4 (R29). -/
def statusV (st : Word) : Bool := st.getLsbD 4

/-- The reserved bits of `STATUS`, 31:5 (R29). -/
def statusReserved (st : Word) : BitVec 27 := st.extractLsb' 5 27

/-- `STATUS.ERR <- code`, the other bits kept. -/
def setErr (st : Word) (e : ErrCode) : Word := st.extractLsb' 4 28 ++ e.code

/-- `STATUS.V <- ok`, the other bits kept. -/
def setV (st : Word) (ok : Bool) : Word := st.extractLsb' 5 27 ++ BitVec.ofBool ok ++ st.extractLsb' 0 4

end Sys2Proof.Machine
end

