-- ==== Sys2Proof/Machine/Ops.lean ====
section
/-! DEFINITION. The operations every command is made of (spec/00_scope.md R9): reading and writing each kind of state,
answering the host, and `raise Error(code)` (spec/60_exceptions.md R260), the block's one way of taking an error. There
is no return from it: "Because nothing is entered, there is nothing to return from" (R261). -/

namespace Sys2Proof.Machine

/-! ### The output buffer (spec/10_state.md R28, spec/20_memory.md R64) -/

/-- The contents of the output buffer: the bytes of the indices `0 .. OLEN - 1`, and no other index exists. -/
abbrev Memory := List Byte

/-- The buffer keeps within its capacity (R28). A byte sequence from index 0 on is its own canonical form: equal buffers
are equal lists. -/
def Memory.wf (cap : Nat) (m : Memory) : Bool := m.length ≤ cap

/-- `MemRead(i, 1)` (R9); nothing at or above `OLEN`. -/
def Memory.read (m : Memory) (i : Nat) : Option Byte := m[i]?

/-- `MemWrite(OLEN, 1, b)` for each byte of a sequence in turn: the bytes go behind the contents. -/
def Memory.append (m : Memory) (bytes : List Byte) : Memory := m ++ bytes

/-- `OBUF_CAP`. -/
def State.cap (s : State) : Nat := s.config.val.obufCap

/-- `OLEN` (R28). -/
def State.olen (s : State) : Half := BitVec.ofNat 16 s.obuf.length

/-- One byte of the output buffer. -/
def State.readByte (s : State) (i : Nat) : Option Byte := Memory.read s.obuf i

/-- Append bytes if they fit, else `BUFFER_OVERFLOW` (spec/44_host_access.md R232, spec/40_checksum.md R136). -/
def State.appendBytes (s : State) (bytes : List Byte) : Except ErrCode State :=
  if s.obuf.length + bytes.length > s.cap then .error .bufferOverflow
  else .ok { s with obuf := Memory.append s.obuf bytes }

/-! ### Counters and parameter registers (R23, R30) -/

/-- The counters of the register file (R23). -/
inductive Counter where
  | joy | led | gimbal
  deriving DecidableEq, Repr

/-- `CTR[j]`. -/
def State.ctr (s : State) : Counter → Half
  | .joy => s.ctrJoy
  | .led => s.ctrLed
  | .gimbal => s.ctrGimbal

/-- `CTR[j] <- v`. -/
def State.setCtr (s : State) (j : Counter) (v : Half) : State :=
  match j with
  | .joy => { s with ctrJoy := v }
  | .led => { s with ctrLed := v }
  | .gimbal => { s with ctrGimbal := v }

/-- `CTR[j] <- u16(CTR[j] + 1)`, which takes 65535 to 0 (R24). -/
def State.bumpCtr (s : State) (j : Counter) : State := s.setCtr j (s.ctr j + 1#16)

/-- `PARAM[k] <- v` (R30); none for an index with no register (spec/30_encoding.md R94 (e)). -/
def State.setParam (s : State) (k : Byte) (v : Word) : Option State :=
  match k.toNat with
  | 0 => some { s with param0 := v }
  | 1 => some { s with param1 := v }
  | 2 => some { s with param2 := v }
  | _ => none

/-! ### The TX stream (R33) -/

/-- `emit(frame)` for each frame in turn. -/
def State.emit (s : State) (frames : List CanFrame) : State := { s with tx := s.tx ++ frames }

/-! ### Completing a command -/

/-- A command succeeds with response data `d`: `STATUS.ERR <- OK` (R29) and the response `(OK, d)` (R35). -/
def State.succeed (s : State) (d : Word) : State :=
  { s with status := setErr s.status .ok, responses := s.responses ++ [⟨ErrCode.ok.code, d⟩] }

/-- `raise Error(code)` (R260): against the state before the command only `STATUS.ERR` changes, and the response is
`(code, 0)`. -/
def State.raiseError (s : State) (e : ErrCode) : State :=
  { s with status := setErr s.status e, responses := s.responses ++ [⟨e.code, 0#32⟩] }

/-- A successful READ answers and writes nothing, not even `STATUS` (R29, spec/44_host_access.md R234). -/
def State.answerRead (s : State) (d : Word) : State :=
  { s with responses := s.responses ++ [⟨ErrCode.ok.code, d⟩] }

/-- All or nothing (spec/20_memory.md R73): a command that computed a new state and its data succeeds there, one that
raised an error leaves the state it began in but for the code. -/
def complete (s : State) (r : Except ErrCode (State × Word)) : Result :=
  match r with
  | .ok (t, d) => .next (t.succeed d)
  | .error e => .next (s.raiseError e)

end Sys2Proof.Machine
end

