-- ==== Sys2Proof/Machine/Operands.lean ====
section
/-! DEFINITION. What a command's operands name: a register of spec/10_state.md R38, and the place a build's bytes go
(spec/30_encoding.md R93). The operand fields themselves are read in Decode.lean (R92, R97). -/

namespace Sys2Proof.Machine

/-- `zext_32` of a 16-bit value (spec/00_scope.md R8). -/
def zext16 (v : Half) : Word := v.setWidth 32

/-- `zext_32` of a byte. -/
def zext8 (v : Byte) : Word := v.setWidth 32

/-- `lo8(v)`. -/
def lo8 (v : Half) : Byte := v.extractLsb' 0 8

/-- `hi8(v)`. -/
def hi8 (v : Half) : Byte := v.extractLsb' 8 8

/-- `LE16(lo, hi)` (R8, spec/20_memory.md R67, R68). -/
def le16 (lo hi : Byte) : Half := hi ++ lo

/-- The register `INFO` (R38): `N_TEMPLATES` in bits 7:0, `FRAME_MAX` in bits 15:8, `OBUF_CAP` in bits 31:16. -/
def State.info (s : State) : Word :=
  BitVec.ofNat 16 s.cap ++ BitVec.ofNat 8 frameMax ++ BitVec.ofNat 8 nTemplates

/-- The value READ returns for a register number (R38), zero-extended; none for a reserved number. -/
def State.register (s : State) (r : Byte) : Option Word :=
  match r.toNat with
  | 0x00 => some s.status
  | 0x01 => some (zext16 s.olen)
  | 0x02 => some (zext16 s.ctrJoy)
  | 0x03 => some (zext16 s.ctrLed)
  | 0x04 => some (zext16 s.ctrGimbal)
  | 0x05 => some (zext8 s.acc8)
  | 0x06 => some (zext16 s.acc16)
  | 0x07 => some (zext16 s.nframes)
  | 0x08 => some s.param0
  | 0x09 => some s.param1
  | 0x0A => some s.param2
  | 0x0B => some s.info
  | _ => none

/-- The contents a build keeps in front of its bytes: nothing with `A = 0`, everything with `A = 1` (R93). -/
def State.kept (s : State) (a : Bool) : Memory := if a then s.obuf else []

/-- `base`, the offset at which a build's first byte goes (R93). -/
def State.base (s : State) (a : Bool) : Nat := (s.kept a).length

/-- Placement of built bytes (spec/41_command_builder.md R165). -/
def State.place (s : State) (a : Bool) (bytes : List Byte) : Except ErrCode State :=
  if s.base a + bytes.length > s.cap then .error .bufferOverflow
  else .ok { s with obuf := Memory.append (s.kept a) bytes }

end Sys2Proof.Machine
end

