-- ==== Sys2Proof/Machine/Quantise.lean ====
section
/-! DEFINITION. The parameter quantisers (spec/41_command_builder.md R168 to R170) with the rounding and clamping of
spec/00_scope.md R11, in exact integer arithmetic: every finite binary32 value is a whole multiple of `2^-149`.
Laws/Quantise.lean proves them equal to the formulas over the rationals. -/

namespace Sys2Proof.Machine

/-- `binary32(p)` (R170): NaN, an infinity of a sign, or a finite value, held as the number of times it counts
`2^-149`. Both zeros are 0 (R11). -/
inductive Binary32 where
  | nan
  | inf (negative : Bool)
  | finite (units : Int)
  deriving DecidableEq, Repr

/-- How many units of `2^-149` make 1. -/
def unitsPerOne : Nat := 2 ^ 149

/-- The exponent field, bits 30:23 (R170). -/
def expField (p : Word) : Nat := (p.extractLsb' 23 8).toNat

/-- The fraction field, bits 22:0 (R170). -/
def fracField (p : Word) : Nat := (p.extractLsb' 0 23).toNat

/-- The magnitude of a finite pattern in units of `2^-149` (R170): `m * 2^-149` for exponent 0, else
`(2^23 + m) * 2^(e - 150)`. -/
def magnitude (p : Word) : Nat :=
  if expField p = 0 then fracField p else (2 ^ 23 + fracField p) * 2 ^ (expField p - 1)

/-- The value a pattern stands for (R170). -/
def binary32 (p : Word) : Binary32 :=
  if expField p = 0xFF then
    if fracField p = 0 then .inf (p.getLsbD 31) else .nan
  else .finite (if p.getLsbD 31 then -(magnitude p : Int) else (magnitude p : Int))

/-- `round(n / d)` for `d > 0`: the nearest integer, halves away from zero (R11). -/
def roundDiv (n : Int) (d : Nat) : Int :=
  if 0 ≤ n then (2 * n + d) / (2 * d) else -((-2 * n + d) / (2 * d))

/-- `clamp(x, lo, hi)` (R11). -/
def clamp (x lo hi : Int) : Int := if x < lo then lo else if hi < x then hi else x

/-- `Q11` (R168): the twist quantiser; `free` is the value drawn for a NaN. -/
def q11 (free : BitVec 11) (p : Word) : BitVec 11 :=
  match binary32 p with
  | .nan => free
  | .inf negative => if negative then 0#11 else 2047#11
  | .finite u => BitVec.ofInt 11 (clamp (roundDiv (256 * u + 1024 * unitsPerOne) unitsPerOne) 0 2047)

/-- `Q16` (R169): the gimbal quantiser; `free` is the value drawn for a NaN, an infinity or a result outside 16 bits. -/
def q16 (free : Half) (p : Word) : Half :=
  match binary32 p with
  | .nan => free
  | .inf _ => free
  | .finite u =>
    let n := roundDiv (-1024 * u) unitsPerOne
    if n < -32768 ∨ 32767 < n then free else BitVec.ofInt 16 n

end Sys2Proof.Machine
end

