-- ==== Sys2Proof/Machine/Crc.lean ====
section
/-! DEFINITION. The checksum functions (spec/00_scope.md R10, spec/40_checksum.md R130 and R131). The tables are given by
their generating rule; Tests/Slice0.lean holds them against the entries the spec prints. -/

namespace Sys2Proof.Machine

/-- One round of the reflected CRC-8 of polynomial 0x8C (R130). -/
def crc8Round (x : Byte) : Byte := if x.getLsbD 0 then (x >>> 1) ^^^ 0x8C#8 else x >>> 1

/-- `CRC8_TABLE[i]` (R130). -/
def crc8Table (i : Byte) : Byte := crc8Round^[8] i

/-- `crc8_step(a, b)` (R10). -/
def crc8Step (a b : Byte) : Byte := crc8Table (a ^^^ b)

/-- `crc8(s)` (R10). -/
def crc8 (s : List Byte) : Byte := s.foldl crc8Step crc8Seed

/-- One round of the reflected CRC-16 of polynomial 0x8408 (R131). -/
def crc16Round (x : Half) : Half := if x.getLsbD 0 then (x >>> 1) ^^^ 0x8408#16 else x >>> 1

/-- `CRC16_TABLE[i]` (R131). -/
def crc16Table (i : Byte) : Half := crc16Round^[8] (i.setWidth 16)

/-- `crc16_step(c, b)` (R10): `(c >> 8) ^ CRC16_TABLE[(c ^ b) & 0xFF]`. -/
def crc16Step (c : Half) (b : Byte) : Half := (c >>> 8) ^^^ crc16Table (lo8 (c ^^^ b.setWidth 16))

/-- `crc16(s)` (R10). -/
def crc16 (s : List Byte) : Half := s.foldl crc16Step crc16Seed

/-- A CRC16 as the two bytes of a trailer, least-significant byte first (R67, R136). -/
def trailer (t : Half) : List Byte := [lo8 t, hi8 t]

/-- The check of VERIFY_CRC16 (R137): the CRC16 of all bytes but the last two against those two; false for fewer than
two bytes. -/
def verifies (m : Memory) : Bool :=
  if m.length < 2 then false
  else crc16 (m.take (m.length - 2)) == le16 (m.getD (m.length - 2) 0#8) (m.getD (m.length - 1) 0#8)

end Sys2Proof.Machine
end

