-- ==== Sys2Proof/Machine/Template.lean ====
section
/-! DEFINITION. The common machinery of the builds (spec/41_command_builder.md R160 to R164, R171 to R174): lookup, the
roles of the offsets, the walk that emits a command's bytes, and the parameter sources. -/

namespace Sys2Proof.Machine

/-- `lookup(id)` (R161). -/
def lookup (c : Config) (id : Nat) : Except ErrCode Template :=
  match c.template? id with
  | none => .error .commandNotFound
  | some t => if t.len < 2 then .error .invalidCommandLength else .ok t

/-- A parameter source (R162): the byte a tag takes at an offset. -/
abbrev ParamSource := ParamTag → Nat → Byte

/-- The role of a body offset (R163). -/
inductive Role where
  | crc8Marker | counterLow | counterHigh
  | parameter (tag : ParamTag)
  | literal
  deriving DecidableEq, Repr

/-- The role of body offset `i`, in the priority order of R163; with no parameter source a tagged offset is literal
(R162). -/
def roleAt (t : Template) (hasSource : Bool) (i : Nat) : Role :=
  if i ∈ t.crc8 then .crc8Marker
  else if t.ctr ∧ i = counterOffset then .counterLow
  else if t.ctr ∧ i = counterOffset + 1 then .counterHigh
  else
    match hasSource, t.tagAt i with
    | true, some tag => .parameter tag
    | _, _ => .literal

/-- The literal byte of an offset; a body byte exists for every offset below `L - 2` (R60). -/
def literalAt (t : Template) (i : Nat) : Byte := t.body.getD i 0#8

/-- The byte emitted at offset `i` when the running CRC8 is `a` (R163, R164). -/
def emittedByte (t : Template) (c : Half) (p : Option ParamSource) (a : Byte) (i : Nat) : Byte :=
  match roleAt t p.isSome i with
  | .crc8Marker => a
  | .counterLow => lo8 c
  | .counterHigh => hi8 c
  | .parameter tag => (p.map fun source => source tag i).getD (literalAt t i)
  | .literal => literalAt t i

/-- The walk over the first `n` offsets (R164): the bytes emitted and the running CRC8 after them. -/
def walk (t : Template) (c : Half) (p : Option ParamSource) : Nat → List Byte × Byte
  | 0 => ([], crc8Seed)
  | n + 1 =>
    let (out, a) := walk t c p n
    let b := emittedByte t c p a n
    (out ++ [b], crc8Step a b)

/-- What a template build gives (R164): the command's bytes, the final running CRC8, the trailer value. -/
structure Built where
  bytes : List Byte
  running : Byte
  crc : Half
  deriving DecidableEq, Repr

/-- `build_cmd(T, c, P)` (R164). -/
def buildCmd (t : Template) (c : Half) (p : Option ParamSource) : Built :=
  let (out, a) := walk t c p t.bodyLen
  { bytes := out ++ trailer (crc16 out), running := a, crc := crc16 out }

/-! ### The parameter sources -/

/-- The three quantised twist fields. -/
structure TwistValues where
  x : BitVec 11
  y : BitVec 11
  z : BitVec 11
  deriving DecidableEq, Repr

/-- `F_f` (R171). -/
def TwistValues.get (v : TwistValues) : TwistField → BitVec 11
  | .x => v.x
  | .y => v.y
  | .z => v.z

/-- What a slice puts into its byte: `((F_f >> s) & ((1 << w) - 1)) << d` (R171). -/
def sliceBits (v : TwistValues) (s : Slice) : Byte :=
  (((v.get s.field >>> s.src).setWidth 8) &&& ((1#8 <<< s.width) - 1#8)) <<< s.dst

/-- The bitwise or of a list of bytes. -/
def orAll (bytes : List Byte) : Byte := bytes.foldr (· ||| ·) 0#8

/-- The slices of an offset (R171). -/
def slicesAt (c : Config) (i : Nat) : List Slice := (c.twistLayout.lookup i).getD []

/-- `P_twist` (R171): the field bits in the slices, the template's literal bits elsewhere. -/
def twistSource (c : Config) (t : Template) (v : TwistValues) : ParamSource := fun _ i =>
  (literalAt t i &&& ~~~(orAll ((slicesAt c i).map Slice.mask))) ||| orAll ((slicesAt c i).map (sliceBits v))

/-- `P_gimbal` (R173) for pitch and yaw; a template build of the gimbal reads no other tag (W6). -/
def gimbalSource (t : Template) (pitch yaw : Half) : ParamSource := fun tag i =>
  match tag with
  | .pitchLo => lo8 pitch
  | .pitchHi => hi8 pitch
  | .yawLo => lo8 yaw
  | .yawHi => hi8 yaw
  | .twist | .red | .green | .blue => literalAt t i

/-- `P_led` (R174); a template build of the LED command reads no other tag (W7). -/
def ledSource (t : Template) (c : Color) : ParamSource := fun tag i =>
  match tag with
  | .red => c.red
  | .green => c.green
  | .blue => c.blue
  | .twist | .pitchLo | .pitchHi | .yawLo | .yawHi => literalAt t i

end Sys2Proof.Machine
end

