-- ==== Sys2Proof/Machine/Builder.lean ====
section
/-! DEFINITION. The build commands (spec/41_command_builder.md R165 to R167, R175, R180 to R185). -/

namespace Sys2Proof.Machine

/-- The work every template build shares (R160): lookup, walk, placement, write-back of the accumulators (R166). -/
def templateBuild (s : State) (id : Nat) (a : Bool) (c : Half) (p : Template → Option ParamSource) :
    Except ErrCode State :=
  match lookup s.config.val id with
  | .error e => .error e
  | .ok t =>
    let b := buildCmd t c (p t)
    match s.place a b.bytes with
    | .error e => .error e
    | .ok u => .ok { u with acc8 := b.running, acc16 := b.crc }

/-- A build that is done answers the new `OLEN`. -/
def withOlen (r : Except ErrCode State) : Except ErrCode (State × Word) :=
  match r with
  | .error e => .error e
  | .ok t => .ok (t, zext16 t.olen)

/-- A family build increments its counter on success (R175). -/
def bumped (j : Counter) (r : Except ErrCode State) : Except ErrCode State :=
  match r with
  | .error e => .error e
  | .ok t => .ok (t.bumpCtr j)

/-- A successful build has used up the free values it was offered (notes/assumptions/3.md). -/
def drew (n : Nat) (r : Except ErrCode State) : Except ErrCode State :=
  match r with
  | .error e => .error e
  | .ok t => .ok { t with draws := t.draws + n }

/-- The quantised twist fields of a state (R181), each with a free value of its own. -/
def State.twistValues (s : State) : TwistValues :=
  { x := q11 (Config.freeTwist s.draws) s.param0,
    y := q11 (Config.freeTwist (s.draws + 1)) s.param1,
    z := q11 (Config.freeTwist (s.draws + 2)) s.param2 }

/-- The quantised pitch of a state (R182). -/
def State.pitch (s : State) : Half := q16 (Config.freeGimbal s.draws) s.param0

/-- The quantised yaw of a state (R182). -/
def State.yaw (s : State) : Half := q16 (Config.freeGimbal (s.draws + 1)) s.param1

/-- BUILD (R180): an explicit counter value, no parameter substitution, no counter changed. -/
def execBuild (id : Byte) (a : Bool) (c : Half) (s : State) : Result :=
  complete s (withOlen (templateBuild s id.toNat a c fun _ => none))

/-- BUILD_TWIST (R181). -/
def execBuildTwist (a : Bool) (s : State) : Result :=
  complete s <| withOlen <| drew 3 <| bumped .joy <|
    templateBuild s s.config.val.twistId a s.ctrJoy fun t => some (twistSource s.config.val t s.twistValues)

/-- BUILD_GIMBAL (R182). -/
def execBuildGimbal (a : Bool) (s : State) : Result :=
  complete s <| withOlen <| drew 2 <| bumped .gimbal <|
    templateBuild s s.config.val.gimbalId a s.ctrGimbal fun t => some (gimbalSource t s.pitch s.yaw)

/-- BUILD_LED (R183). -/
def execBuildLed (a : Bool) (red green blue : Byte) (s : State) : Result :=
  complete s <| withOlen <| bumped .led <|
    templateBuild s s.config.val.ledId a s.ctrLed fun t => some (ledSource t ⟨red, green, blue⟩)

/-- `TOUCH_A` with its counter bytes replaced (R184). -/
def touchHead (c : Config) (v : Half) : List Byte :=
  (c.touchA.set counterOffset (lo8 v)).set (counterOffset + 1) (hi8 v)

/-- The bytes before the touch trailer: both arrays (spec/30_encoding.md R104). -/
def touchBody (c : Config) (v : Half) : List Byte := touchHead c v ++ c.touchB

/-- BUILD_TOUCH (R184): no template, and `ACC8` is left unchanged. -/
def execBuildTouch (a : Bool) (s : State) : Result :=
  let body := touchBody s.config.val s.ctrJoy
  complete s <| withOlen <| bumped .joy <|
    match s.place a (body ++ trailer (crc16 body)) with
    | .error e => .error e
    | .ok u => .ok { u with acc16 := crc16 body }

/-- The commands of the boot range, each built with counter 0 and no parameters (R185, spec/30_encoding.md R105). The
first failing lookup decides the error (R167). -/
def bootRange (c : Config) : List Nat → Except ErrCode (List Byte)
  | [] => .ok []
  | id :: rest =>
    match lookup c id with
    | .error e => .error e
    | .ok t =>
      match bootRange c rest with
      | .error e => .error e
      | .ok bytes => .ok ((buildCmd t 0#16 none).bytes ++ bytes)

/-- BUILD_BOOT (R185): one capacity check on the whole sequence, the accumulators from the LED-on build, no counter
changed. -/
def execBuildBoot (a : Bool) (s : State) : Result :=
  complete s <| withOlen <|
    match bootRange s.config.val s.config.val.bootIds with
    | .error e => .error e
    | .ok seq =>
      match lookup s.config.val s.config.val.ledId with
      | .error e => .error e
      | .ok t =>
        let b := buildCmd t 0#16 (some (ledSource t s.config.val.bootLedColor))
        match s.place a (seq ++ b.bytes) with
        | .error e => .error e
        | .ok u => .ok { u with acc8 := b.running, acc16 := b.crc }

end Sys2Proof.Machine
end

