-- ==== Sys2Proof/Machine/Checksum.lean ====
section
/-! DEFINITION. The checksum commands (spec/40_checksum.md R132 to R137). -/

namespace Sys2Proof.Machine

/-- CRC8_INIT (R132). -/
def execCrc8Init (s : State) : Result :=
  complete s (.ok ({ s with acc8 := crc8Seed }, zext8 crc8Seed))

/-- CRC8_UPDATE (R133). -/
def execCrc8Update (b : Byte) (s : State) : Result :=
  complete s (.ok ({ s with acc8 := crc8Step s.acc8 b }, zext8 (crc8Step s.acc8 b)))

/-- CRC16_INIT (R134). -/
def execCrc16Init (s : State) : Result :=
  complete s (.ok ({ s with acc16 := crc16Seed }, zext16 crc16Seed))

/-- CRC16_UPDATE (R135). -/
def execCrc16Update (b : Byte) (s : State) : Result :=
  complete s (.ok ({ s with acc16 := crc16Step s.acc16 b }, zext16 (crc16Step s.acc16 b)))

/-- APPEND_CRC16 (R136): the trailer of the whole buffer, recomputed from the seed; `ACC16` is not read. -/
def execAppendCrc16 (s : State) : Result :=
  complete s <|
    match s.appendBytes (trailer (crc16 s.obuf)) with
    | .error e => .error e
    | .ok t => .ok ({ t with acc16 := crc16 s.obuf }, zext16 t.olen)

/-- VERIFY_CRC16 (R137): a failed check is no error. -/
def execVerifyCrc16 (s : State) : Result :=
  complete s (.ok ({ s with status := setV s.status (verifies s.obuf) }, (BitVec.ofBool (verifies s.obuf)).setWidth 32))

end Sys2Proof.Machine
end

