-- ==== Sys2Proof/Machine/HostAccess.lean ====
section
/-! DEFINITION. The host access commands (spec/44_host_access.md R230 to R235). -/

namespace Sys2Proof.Machine

/-- NOP (R230): only reports success. -/
def execNop (s : State) : Result := complete s (.ok (s, 0#32))

/-- CLEAR (R231). -/
def execClear (s : State) : Result := complete s (.ok ({ s with obuf := [] }, 0#32))

/-- PUSH (R232). -/
def execPush (b : Byte) (s : State) : Result :=
  complete s <|
    match s.appendBytes [b] with
    | .error e => .error e
    | .ok t => .ok (t, zext16 t.olen)

/-- READB (R233). -/
def execReadb (i : Half) (s : State) : Result :=
  complete s <|
    match s.readByte i.toNat with
    | none => .error .indexRange
    | some b => .ok (s, zext8 b)

/-- READ (R234): the one command whose success writes nothing. -/
def execRead (r : Byte) (s : State) : Result :=
  match s.register r with
  | none => .next (s.raiseError .illegalOp)
  | some v => .next (s.answerRead v)

/-- SETP (R235): any 32-bit pattern is accepted. -/
def execSetp (k : Byte) (v : Word) (s : State) : Result :=
  complete s <|
    match s.setParam k v with
    | none => .error .illegalOp
    | some t => .ok (t, 0#32)

end Sys2Proof.Machine
end

