-- ==== Sys2Proof/Machine/Splitter.lean ====
section
/-! DEFINITION. The frame splitter (spec/42_frame_splitter.md R200 to R202). -/

namespace Sys2Proof.Machine

/-- `ceil(N / 8)`. -/
def chunkCount (n : Nat) : Nat := (n + (frameMax - 1)) / frameMax

/-- `split(s)` (R200): chunk `k` is `s[8k .. min(8k + 8, N))`. -/
def splitBytes (s : List Byte) : List (List Byte) :=
  (List.range (chunkCount s.length)).map fun k => (s.drop (frameMax * k)).take frameMax

/-- The frame of a chunk (R33, spec/30_encoding.md R106): a standard data frame to `CAN_ID`. -/
def frameOf (chunk : List Byte) : CanFrame :=
  { ide := false, rtr := false, id := canId, dlc := chunk.length, data := chunk }

/-- SPLIT (R202): the buffer is left unchanged. -/
def execSplit (s : State) : Result :=
  let chunks := splitBytes s.obuf
  complete s (.ok ({ s.emit (chunks.map frameOf) with nframes := BitVec.ofNat 16 chunks.length },
    BitVec.ofNat 32 chunks.length))

end Sys2Proof.Machine
end

