-- ==== Sys2Proof/Machine/Dispatch.lean ====
section
/-! DEFINITION. The dispatch of a decoded command to its meaning: one arm per constructor of `Instr`. -/

namespace Sys2Proof.Machine

def exec (i : Instr) (s : State) : Host.Outcome State Fault Refusal :=
  match i with
  | .nop => Sys2Proof.Machine.execNop s
  | .clear => Sys2Proof.Machine.execClear s
  | .push b => Sys2Proof.Machine.execPush b s
  | .readb x => Sys2Proof.Machine.execReadb x s
  | .read r => Sys2Proof.Machine.execRead r s
  | .setp k v => Sys2Proof.Machine.execSetp k v s
  | .crc8Init => Sys2Proof.Machine.execCrc8Init s
  | .crc8Update b => Sys2Proof.Machine.execCrc8Update b s
  | .crc16Init => Sys2Proof.Machine.execCrc16Init s
  | .crc16Update b => Sys2Proof.Machine.execCrc16Update b s
  | .appendCrc16 => Sys2Proof.Machine.execAppendCrc16 s
  | .verifyCrc16 => Sys2Proof.Machine.execVerifyCrc16 s
  | .build id a c => Sys2Proof.Machine.execBuild id a c s
  | .buildTwist a => Sys2Proof.Machine.execBuildTwist a s
  | .buildGimbal a => Sys2Proof.Machine.execBuildGimbal a s
  | .buildLed a red green blue => Sys2Proof.Machine.execBuildLed a red green blue s
  | .buildTouch a => Sys2Proof.Machine.execBuildTouch a s
  | .buildBoot a => Sys2Proof.Machine.execBuildBoot a s
  | .split => Sys2Proof.Machine.execSplit s

end Sys2Proof.Machine
end

