-- ==== Sys2Proof/Machine/Telemetry.lean ====
section
/-! DEFINITION. The telemetry resynchronisation (spec/43_telemetry_resync.md R220 to R222): the meaning of an RX event,
which is a step of the receive environment and no command. -/

namespace Sys2Proof.Machine

/-- The frame is a standard data frame with `CAN_ID` and DLC 8 (R221, spec/90_conflicts.md C2). -/
def CanFrame.fromDevice (f : CanFrame) : Bool :=
  !f.ide && !f.rtr && f.id == canId && f.dlc == 8

/-- The counter a frame's data carries (R221): `LE16` of bytes 6 and 7 behind `TELEM_PREFIX`; none for other data. -/
def telemetryCounter (data : List Byte) : Option Half :=
  match data.drop counterOffset with
  | [lo, hi] => if data.take counterOffset = telemPrefix then some (le16 lo hi) else none
  | _ => none

/-- What `CTR_JOY` becomes on a frame: `decoded + 1`; none where the frame does not match (R221, R222). -/
def resyncValue (f : CanFrame) : Option Half :=
  if f.fromDevice then (telemetryCounter f.data).map (· + 1#16) else none

/-- An RX event (R221): `joy <- decoded + 1` on a match, and no effect otherwise. It gives no response (R35). -/
def rxEvent (f : CanFrame) (s : State) : State :=
  match resyncValue f with
  | some v => s.setCtr .joy v
  | none => s

end Sys2Proof.Machine
end

