-- ==== Sys2Proof/Machine/Step.lean ====
section
/-! DEFINITION. One step of the block (spec/00_scope.md R5, spec/10_state.md R20, spec/20_memory.md R72): the next input,
a command or an RX event, taken and worked off whole. -/

namespace Sys2Proof.Machine

/-- A command word: the decoded command runs, and a word that fails decode raises `ILLEGAL_OP` before any effect
(spec/30_encoding.md R94). -/
def commandStep (w : CommandWord) (s : State) : Result :=
  match decode w with
  | .error _ => .next (s.raiseError .illegalOp)
  | .ok i => exec i s

/-- The block's step. With no input waiting nothing happens: only the host and the receive environment take steps (R20,
notes/assumptions/2.md). -/
def step (s : State) : Host.Outcome State Fault Refusal :=
  match s.inputs with
  | [] => .next s
  | .command w :: rest => commandStep w { s with inputs := rest }
  | .rx f :: rest => .next (rxEvent f { s with inputs := rest })

/-- The word of `nbits` bits is the host's next command; what was to come comes after it (notes/assumptions/2.md). -/
def State.withFetchWord (s : State) (nbits w : Nat) : State :=
  { s with inputs := .command (BitVec.ofNat 64 (w % 2 ^ nbits)) :: s.inputs }

end Sys2Proof.Machine
end

