-- ==== Sys2Proof/Safety.lean ====
section
/-! DEFINITION. What the statements about the block are made of: the invariant of its states, the frames the TX port may
carry, words that raise `ILLEGAL_OP`, what a step may leave unchanged, and runs of commands. -/

namespace Sys2Proof.Machine

/-! ### The invariant -/

/-- A frame as the TX port carries it (spec/10_state.md R33, spec/30_encoding.md R106): a standard data frame to 0x201
with 1 to 8 data bytes. -/
def SentFrame (f : CanFrame) : Prop :=
  f.ide = false ∧ f.rtr = false ∧ f.id = 0x201#29 ∧ 1 ≤ f.dlc ∧ f.dlc ≤ 8 ∧ f.data.length = f.dlc

/-- The invariant of the block's states. -/
structure Invariant (s : State) : Prop where
  /-- `0 <= OLEN <= OBUF_CAP` (R28). -/
  buffer : Memory.wf s.cap s.obuf = true
  /-- `STATUS.ERR` never holds a reserved code (spec/93_implementation_defined.md I5). -/
  code : (statusErr s.status).toNat ≤ 5
  /-- `STATUS[31:5]` reads 0 (R29, I7). -/
  reserved : statusReserved s.status = 0#27
  /-- Only standard data frames of 1 to 8 bytes reach the TX stream (R33, spec/42_frame_splitter.md R203). -/
  frames : ∀ f ∈ s.tx, SentFrame f
  /-- `NFRAMES <= 8192` (R202). -/
  count : s.nframes.toNat ≤ 8192

/-! ### Commands that are delivered, and words that spell none -/

/-- The host's next command is the word `w`, and `rest` is still to come. -/
def State.delivers (s : State) (w : CommandWord) (rest : List Input) : Prop := s.inputs = .command w :: rest

/-- The input has been taken. -/
def State.taken (s : State) (rest : List Input) : State := { s with inputs := rest }

/-- The word raises `ILLEGAL_OP`, code 1, in every state, with no other effect (spec/30_encoding.md R94, R96,
spec/60_exceptions.md R260). -/
def RaisesIllegalOp (w : CommandWord) : Prop :=
  ∀ s rest, s.delivers w rest → step s = .next ((s.taken rest).raiseError .illegalOp)

/-- Of the words with this opcode exactly the `legal` ones spell a command, the one `read` gives, and each other one
raises `ILLEGAL_OP`. -/
def Spelled (opc : Byte) (legal : CommandWord → Prop) (read : CommandWord → Instr) : Prop :=
  ∀ w, opcField w = opc → (legal w → decode w = .ok (read w)) ∧ (¬legal w → RaisesIllegalOp w)

/-- The bits of a word from `hi` down to `lo` are zero. -/
def zeroBits (w : CommandWord) (hi lo : Nat) : Prop := w.extractLsb' lo (hi + 1 - lo) = 0

/-! ### What a command leaves unchanged -/

/-- The three counters are unchanged. -/
def sameCounters (s t : State) : Prop := t.ctrJoy = s.ctrJoy ∧ t.ctrLed = s.ctrLed ∧ t.ctrGimbal = s.ctrGimbal

/-- Both accumulators are unchanged. -/
def sameAccumulators (s t : State) : Prop := t.acc8 = s.acc8 ∧ t.acc16 = s.acc16

/-- The parameter registers are unchanged. -/
def sameParams (s t : State) : Prop := t.param0 = s.param0 ∧ t.param1 = s.param1 ∧ t.param2 = s.param2

/-- Every byte of the output buffer reads as before, and so does its length. -/
def sameBuffer (s t : State) : Prop := (∀ i, t.readByte i = s.readByte i) ∧ t.olen = s.olen

/-- `STATUS.V` and the reserved bits of `STATUS` are unchanged. -/
def sameStatusButErr (s t : State) : Prop := t.status.extractLsb' 4 28 = s.status.extractLsb' 4 28

/-- The ports are as before but for the one response. -/
def samePorts (s t : State) : Prop := t.tx = s.tx ∧ t.nframes = s.nframes

/-- The result code of the command that took `s` to `t`: the code of the response it gave. -/
def answered (s t : State) (code : BitVec 4) (data : Word) : Prop := t.responses = s.responses ++ [⟨code, data⟩]

/-! ### The templates of an admitted configuration -/

/-- The template of an identifier, where one is present. -/
def templateOf (c : Config) (id : Nat) : Template := (c.template? id).getD ⟨0, [], [], false, []⟩

/-- The bytes a build of length `n` asks for fit behind what the append flag keeps (R165). -/
def State.fits (s : State) (a : Bool) (n : Nat) : Prop :=
  (if a then s.obuf.length else 0) + n ≤ s.config.val.obufCap

/-- The state after a build has put `bytes` in place with the append flag `a` (R93). -/
def State.placed (s : State) (a : Bool) (bytes : List Byte) : State :=
  { s with obuf := (if a then s.obuf else []) ++ bytes }

/-- The command completes: it gives a next state, answers `OK` with the new `OLEN`. -/
def State.buildCompletes (s : State) (i : Instr) : Prop :=
  ∃ t, exec i s = .next t ∧ answered s t 0#4 (t.olen.setWidth 32)

/-! ### Runs of steps and of commands -/

/-- Two steps from `s`, with the inputs `first` and `second` and then `rest` to come, end in `u`. -/
def State.stepsTwice (s : State) (first second : Input) (rest : List Input) (u : State) : Prop :=
  ∃ m, step { s with inputs := first :: second :: rest } = .next m ∧ step m = .next u

/-- A list of commands in turn, stopping at the first that gives no next state. -/
def runCommands : List Instr → State → Result
  | [], s => .next s
  | i :: rest, s =>
    match exec i s with
    | .next t => runCommands rest t
    | .fault r => .fault r
    | .refused r => .refused r

end Sys2Proof.Machine
end

