-- ==== Sys2Proof/Certificates/Slice0/Obligations.lean ====
section
/-! DEFINITION. The statements about the RS1 command engine. Each docstring names the rule of spec/ it formalises. The
answer of a command that succeeds is `State.succeed` and of one that raises an error `State.raiseError`; what these two
leave unchanged is stated in `SuccessAndErrorWriteOnlyErr`. A command's equation over the whole state is its frame: a
field the new state does not name is the old one. -/

open Sys2Proof Sys2Proof.Machine

/-! ### Steps and encodings -/

/-- R5, R20, R90: a step takes the next input. A word that decodes runs its command on the state with the input taken, a
frame is one RX event. With no input the state stays (the model's choice: notes/assumptions/2.md). -/
def Obligations.StepRunsTheDecodedCommand : Prop :=
  (∀ s w rest i, s.delivers w rest → decode w = .ok i → step s = exec i (s.taken rest)) ∧
    (∀ s f rest, s.inputs = .rx f :: rest → step s = .next (rxEvent f (s.taken rest))) ∧
    ∀ s, s.inputs = [] → step s = .next s

/-- R98 and the vectors of spec/95_test_vectors.md: words the spec writes out decode to the commands it writes beside
them. -/
def Obligations.WordsOfTheSpecDecode : Prop :=
  decode 0x0000000000000000#64 = .ok .nop ∧
    decode 0x0200000000000055#64 = .ok (.push 0x55#8) ∧
    decode 0x030000000000000D#64 = .ok (.readb 13#16) ∧
    decode 0x040B000000000000#64 = .ok (.read 0x0B#8) ∧
    decode 0x050000003F800000#64 = .ok (.setp 0#8 0x3F800000#32) ∧
    decode 0x1100000000000055#64 = .ok (.crc8Update 0x55#8) ∧
    decode 0x1500000000000000#64 = .ok .verifyCrc16 ∧
    decode 0x2005010000000102#64 = .ok (.build 5#8 true 0x0102#16) ∧
    decode 0x2100010000000000#64 = .ok (.buildTwist true) ∧
    decode 0x2300000000FF0000#64 = .ok (.buildLed false 0#8 0#8 0xFF#8) ∧
    decode 0x3000000000000000#64 = .ok .split ∧
    decode 0x0600000000000000#64 = .error .unassignedOpcode ∧
    decode 0x2000020000000000#64 = .error .reservedNonzero ∧
    decode 0x0200000000000155#64 = .error .unusedNonzero ∧
    decode 0x040C000000000000#64 = .error .operandRange

/-- R91, R92, R95: every well-formed command, with every operand at every value, decodes from the word that spells it. -/
def Obligations.DecodeInvertsEncode : Prop := ∀ i : Instr, i.wf = true → decode (encode i) = .ok i

/-- R90, R94: a word that decodes spells its command and no other word does; what it decodes to is well formed. -/
def Obligations.EncodeInvertsDecode : Prop := ∀ w i, decode w = .ok i → i.wf = true ∧ encode i = w

/-- R94: a word fails decode exactly if one of the field checks (a) to (e) catches it. -/
def Obligations.DecodeFailsExactlyOnTheFieldChecks : Prop :=
  ∀ w, (∃ e, decode w = .error e) ↔
    (opcField w ∉ [0x00#8, 0x01#8, 0x02#8, 0x03#8, 0x04#8, 0x05#8, 0x10#8, 0x11#8, 0x12#8, 0x13#8, 0x14#8, 0x15#8,
        0x20#8, 0x21#8, 0x22#8, 0x23#8, 0x24#8, 0x25#8, 0x30#8]) ∨
      ¬(zeroBits w 47 41 ∧ zeroBits w 39 32) ∨
      (opcField w ∉ [0x04#8, 0x05#8, 0x20#8] ∧ ¬zeroBits w 55 48) ∨
      (opcField w ∉ [0x20#8, 0x21#8, 0x22#8, 0x23#8, 0x24#8, 0x25#8] ∧ ¬zeroBits w 40 40) ∨
      (opcField w ∈ [0x00#8, 0x01#8, 0x04#8, 0x10#8, 0x12#8, 0x14#8, 0x15#8, 0x21#8, 0x22#8, 0x24#8, 0x25#8, 0x30#8] ∧
        ¬zeroBits w 31 0) ∨
      (opcField w ∈ [0x02#8, 0x11#8, 0x13#8] ∧ ¬zeroBits w 31 8) ∨
      (opcField w ∈ [0x03#8, 0x20#8] ∧ ¬zeroBits w 31 16) ∨
      (opcField w = 0x23#8 ∧ ¬zeroBits w 31 24) ∨
      (opcField w = 0x04#8 ∧ 0x0B < (selField w).toNat) ∨ (opcField w = 0x05#8 ∧ 2 < (selField w).toNat)

/-- R96, R250: a word that fails decode answers (1, 0), and nothing but `STATUS.ERR` changes. -/
def Obligations.UndecodableWordRaisesIllegalOp : Prop :=
  ∀ s w rest e, s.delivers w rest → decode w = .error e →
    ∃ t, step s = .next t ∧ answered s t 1#4 0#32 ∧ statusErr t.status = 1#4 ∧ sameStatusButErr s t ∧
      sameBuffer s t ∧ sameCounters s t ∧ sameAccumulators s t ∧ sameParams s t ∧ samePorts s t ∧
      t.config = s.config ∧ t.inputs = rest

/-! ### Success, errors, the status register -/

/-- R29, R35, R260: success writes `OK` to `STATUS.ERR` and answers `(OK, d)`; an error writes its code and answers
`(code, 0)`; both keep `STATUS[31:4]` and everything else. -/
def Obligations.SuccessAndErrorWriteOnlyErr : Prop :=
  (∀ (s : State) d, answered s (s.succeed d) 0#4 d ∧ statusErr (s.succeed d).status = 0#4 ∧
      sameStatusButErr s (s.succeed d) ∧
      { s.succeed d with status := s.status, responses := s.responses } = s) ∧
    ∀ (s : State) e, answered s (s.raiseError e) e.code 0#32 ∧ statusErr (s.raiseError e).status = e.code ∧
      sameStatusButErr s (s.raiseError e) ∧
      { s.raiseError e with status := s.status, responses := s.responses } = s

/-- R260, R73: whatever command is delivered, if it answers a nonzero code then only `STATUS.ERR` has changed, to that
code, and the response data is 0. -/
def Obligations.ErrorsArePrecise : Prop :=
  ∀ s w rest t code data, s.delivers w rest → step s = .next t → answered s t code data → code ≠ 0#4 →
    data = 0#32 ∧ statusErr t.status = code ∧ sameStatusButErr s t ∧
      { t with status := s.status, responses := s.responses } = s.taken rest

/-- R29: every command writes its own result code to `STATUS.ERR` but a READ that succeeds, which leaves `STATUS`
unchanged. -/
def Obligations.EveryCommandWritesItsCode : Prop :=
  ∀ i s t code data, exec i s = .next t → answered s t code data →
    ((∃ r, i = .read r ∧ code = 0#4) → t.status = s.status) ∧
      ((¬∃ r, i = .read r ∧ code = 0#4) → statusErr t.status = code)

/-- R29: only VERIFY_CRC16 writes `STATUS.V`, and no command writes a reserved bit. -/
def Obligations.OnlyVerifyWritesV : Prop :=
  ∀ i s t, exec i s = .next t →
    statusReserved t.status = statusReserved s.status ∧
      (i ≠ .verifyCrc16 → statusV t.status = statusV s.status)

/-- R35: each command gives exactly one response. -/
def Obligations.EachCommandAnswersOnce : Prop :=
  ∀ i s, ∃ t r, exec i s = .next t ∧ t.responses = s.responses ++ [r]

/-! ### Host access (spec/44_host_access.md) -/

/-- R230: NOP. -/
def Obligations.NopOnlyReportsSuccess : Prop :=
  (∀ s, exec .nop s = .next (s.succeed 0#32)) ∧ Spelled 0x00#8 (zeroBits · 55 0) fun _ => .nop

/-- R231: CLEAR. -/
def Obligations.ClearEmptiesTheBuffer : Prop :=
  (∀ s, exec .clear s = .next ({ s with obuf := [] }.succeed 0#32)) ∧ Spelled 0x01#8 (zeroBits · 55 0) fun _ => .clear

/-- R232: PUSH. -/
def Obligations.PushAppendsItsByte : Prop :=
  (∀ s b, s.obuf.length + 1 ≤ s.cap →
      exec (.push b) s =
        .next ({ s with obuf := s.obuf ++ [b] }.succeed (BitVec.ofNat 16 (s.obuf.length + 1) |>.setWidth 32))) ∧
    (∀ s b, s.cap < s.obuf.length + 1 → exec (.push b) s = .next (s.raiseError .bufferOverflow)) ∧
    Spelled 0x02#8 (zeroBits · 55 8) fun w => .push (w.extractLsb' 0 8)

/-- R233: READB. -/
def Obligations.ReadbReadsOneByte : Prop :=
  (∀ s (i : Half) b, s.obuf[i.toNat]? = some b → exec (.readb i) s = .next (s.succeed (b.setWidth 32))) ∧
    (∀ s (i : Half), s.obuf.length ≤ i.toNat → exec (.readb i) s = .next (s.raiseError .indexRange)) ∧
    Spelled 0x03#8 (zeroBits · 55 16) fun w => .readb (w.extractLsb' 0 16)

/-- R38, R234: READ answers the register, zero-extended, and writes nothing, not even `STATUS`; a number above 0x0B
raises `ILLEGAL_OP`. -/
def Obligations.ReadReturnsTheRegister : Prop :=
  (∀ s : State, ∀ e ∈ ([(0x00#8, s.status), (0x01#8, (BitVec.ofNat 16 s.obuf.length).setWidth 32),
        (0x02#8, s.ctrJoy.setWidth 32), (0x03#8, s.ctrLed.setWidth 32), (0x04#8, s.ctrGimbal.setWidth 32),
        (0x05#8, s.acc8.setWidth 32), (0x06#8, s.acc16.setWidth 32), (0x07#8, s.nframes.setWidth 32),
        (0x08#8, s.param0), (0x09#8, s.param1), (0x0A#8, s.param2),
        (0x0B#8, BitVec.ofNat 32 (s.config.val.obufCap * 65536 + 8 * 256 + 38))] : List (Byte × Word)),
      exec (.read e.1) s = .next { s with responses := s.responses ++ [⟨0#4, e.2⟩] }) ∧
    (∀ s (r : Byte), 0x0B < r.toNat → exec (.read r) s = .next (s.raiseError .illegalOp)) ∧
    Spelled 0x04#8 (fun w => zeroBits w 47 0 ∧ (w.extractLsb' 48 8).toNat ≤ 0x0B) fun w => .read (w.extractLsb' 48 8)

/-- R235: SETP. -/
def Obligations.SetpLoadsItsParameter : Prop :=
  (∀ s v, exec (.setp 0#8 v) s = .next ({ s with param0 := v }.succeed 0#32) ∧
      exec (.setp 1#8 v) s = .next ({ s with param1 := v }.succeed 0#32) ∧
      exec (.setp 2#8 v) s = .next ({ s with param2 := v }.succeed 0#32)) ∧
    (∀ s (k : Byte) v, 2 < k.toNat → exec (.setp k v) s = .next (s.raiseError .illegalOp)) ∧
    Spelled 0x05#8 (fun w => zeroBits w 47 32 ∧ (w.extractLsb' 48 8).toNat ≤ 2) fun w =>
      .setp (w.extractLsb' 48 8) (w.extractLsb' 0 32)

/-! ### The checksum engine (spec/40_checksum.md) -/

/-- R132: CRC8_INIT. -/
def Obligations.Crc8InitLoadsTheSeed : Prop :=
  (∀ s, exec .crc8Init s = .next ({ s with acc8 := 0x77#8 }.succeed 0x77#32)) ∧
    Spelled 0x10#8 (zeroBits · 55 0) fun _ => .crc8Init

/-- R133: CRC8_UPDATE advances `ACC8` by one `crc8_step`; byte 0 leaves it unchanged exactly at 0x00 and 0xF7; updating
with `ACC8` itself gives 0; a sequence of updates from the seed leaves `crc8` of the bytes. -/
def Obligations.Crc8UpdateAdvancesByOneByte : Prop :=
  (∀ s b, exec (.crc8Update b) s =
      .next ({ s with acc8 := crc8Table (s.acc8 ^^^ b) }.succeed ((crc8Table (s.acc8 ^^^ b)).setWidth 32))) ∧
    (∀ a : Byte, crc8Step a 0#8 = a ↔ a = 0x00#8 ∨ a = 0xF7#8) ∧ (∀ a : Byte, crc8Step a a = 0#8) ∧
    (∀ s bytes, s.acc8 = 0x77#8 →
      ∃ t, runCommands (bytes.map .crc8Update) s = .next t ∧ t.acc8 = crc8 bytes) ∧
    Spelled 0x11#8 (zeroBits · 55 8) fun w => .crc8Update (w.extractLsb' 0 8)

/-- R134: CRC16_INIT. -/
def Obligations.Crc16InitLoadsTheSeed : Prop :=
  (∀ s, exec .crc16Init s = .next ({ s with acc16 := 0x3692#16 }.succeed 0x3692#32)) ∧
    Spelled 0x12#8 (zeroBits · 55 0) fun _ => .crc16Init

/-- R135: CRC16_UPDATE advances `ACC16` by one `crc16_step`; a sequence of updates from the seed leaves `crc16` of the
bytes. -/
def Obligations.Crc16UpdateAdvancesByOneByte : Prop :=
  (∀ s b, ∃ v : Half, v = s.acc16.ushiftRight 8 ^^^ crc16Table ((s.acc16 ^^^ b.setWidth 16).setWidth 8) ∧
      exec (.crc16Update b) s = .next ({ s with acc16 := v }.succeed (v.setWidth 32))) ∧
    (∀ s bytes, s.acc16 = 0x3692#16 →
      ∃ t, runCommands (bytes.map .crc16Update) s = .next t ∧ t.acc16 = crc16 bytes) ∧
    Spelled 0x13#8 (zeroBits · 55 8) fun w => .crc16Update (w.extractLsb' 0 8)

/-- R136: APPEND_CRC16 appends the CRC16 of the whole buffer, recomputed from the seed, low byte first. -/
def Obligations.AppendCrc16AppendsTheTrailer : Prop :=
  (∀ s, s.obuf.length + 2 ≤ s.cap →
      exec .appendCrc16 s =
        .next ({ s with
            obuf := s.obuf ++ [(crc16 s.obuf).extractLsb' 0 8, (crc16 s.obuf).extractLsb' 8 8],
            acc16 := crc16 s.obuf }.succeed (BitVec.ofNat 16 (s.obuf.length + 2) |>.setWidth 32))) ∧
    (∀ s, s.cap < s.obuf.length + 2 → exec .appendCrc16 s = .next (s.raiseError .bufferOverflow)) ∧
    Spelled 0x14#8 (zeroBits · 55 0) fun _ => .appendCrc16

/-- R137: VERIFY_CRC16 sets `STATUS.V` and answers 1 if the last two bytes are the CRC16 of the others, low byte first,
and 0 otherwise, so for fewer than two bytes. -/
def Obligations.VerifyCrc16ChecksTheTrailer : Prop :=
  (∀ s head lo hi, s.obuf = head ++ [lo, hi] →
      (crc16 head = hi ++ lo → exec .verifyCrc16 s = .next ({ s with status := setV s.status true }.succeed 1#32)) ∧
      (crc16 head ≠ hi ++ lo → exec .verifyCrc16 s = .next ({ s with status := setV s.status false }.succeed 0#32))) ∧
    (∀ s, s.obuf.length < 2 → exec .verifyCrc16 s = .next ({ s with status := setV s.status false }.succeed 0#32)) ∧
    (∀ (st : Word) v, statusV (setV st v) = v ∧ statusErr (setV st v) = statusErr st ∧
      statusReserved (setV st v) = statusReserved st) ∧
    Spelled 0x15#8 (zeroBits · 55 0) fun _ => .verifyCrc16

/-- R138 (d): a buffer of at least two bytes verifies exactly if its CRC16 is 0. -/
def Obligations.VerifyMeansResidueZero : Prop := ∀ m : Memory, 2 ≤ m.length → (verifies m = true ↔ crc16 m = 0#16)

/-- R138 (e): changing any one byte of a buffer that verifies, a trailer byte included, makes VERIFY_CRC16 answer 0. -/
def Obligations.SingleByteChangesAreCaught : Prop :=
  ∀ (s : State) i (b : Byte), verifies s.obuf = true → i < s.obuf.length → s.obuf[i]? ≠ some b →
    exec .verifyCrc16 { s with obuf := s.obuf.set i b } =
      .next ({ s with obuf := s.obuf.set i b, status := setV s.status false }.succeed 0#32)

/-- R138 (c): after an APPEND_CRC16 that succeeds, VERIFY_CRC16 answers 1. -/
def Obligations.AppendThenVerifyHolds : Prop :=
  ∀ s, s.obuf.length + 2 ≤ s.cap →
    ∃ t u, exec .appendCrc16 s = .next t ∧ exec .verifyCrc16 t = .next u ∧ answered t u 0#4 1#32 ∧
      statusV u.status = true

/-! ### The command builder (spec/41_command_builder.md) -/

/-- R163, R164: the byte at each body offset, by the first role that applies: a marker carries the CRC8 of the bytes
before it, a counter offset its byte of the counter, a tagged offset the source's byte, any other its literal byte. -/
def Obligations.BuiltBytesFollowTheRoles : Prop :=
  ∀ (t : Template) (c : Half) (p : Option ParamSource) (i : Nat), i < t.bodyLen →
    ∃ b, (buildCmd t c p).bytes[i]? = some b ∧
      (i ∈ t.crc8 → b = crc8 ((buildCmd t c p).bytes.take i)) ∧
      (i ∉ t.crc8 → t.ctr = true → i = 6 → b = c.extractLsb' 0 8) ∧
      (i ∉ t.crc8 → t.ctr = true → i = 7 → b = c.extractLsb' 8 8) ∧
      (i ∉ t.crc8 → ¬(t.ctr = true ∧ (i = 6 ∨ i = 7)) →
        (∀ source tag, p = some source → t.tagAt i = some tag → b = source tag i) ∧
        (p = none ∨ t.tagAt i = none → ∀ x, t.body[i]? = some x → b = x))

/-- R164, R187 (a) and (c), R100: a template build emits the body and then, low byte first, the CRC16 of the body; it
returns that CRC16 and the CRC8 of the body. For `L >= 2` that is exactly `L` bytes. -/
def Obligations.BuiltCommandEndsInItsCrc16 : Prop :=
  ∀ (t : Template) (c : Half) (p : Option ParamSource), ∃ body, body.length = t.len - 2 ∧
    (buildCmd t c p).bytes = body ++ [(crc16 body).extractLsb' 0 8, (crc16 body).extractLsb' 8 8] ∧
    (buildCmd t c p).crc = crc16 body ∧ (buildCmd t c p).running = crc8 body ∧
    (2 ≤ t.len → (buildCmd t c p).bytes.length = t.len)

/-- R180: BUILD. A present identifier is built with the given counter value and no parameters, and no counter changes;
an absent one raises `COMMAND_NOT_FOUND` whatever the buffer holds. A template with `L < 2`, which no admitted
configuration has, is looked up with `INVALID_COMMAND_LENGTH`. -/
def Obligations.BuildBuildsAnyTemplate : Prop :=
  (∀ s (id : Byte) a c t, s.config.val.templates[id.toNat]? = some t → s.fits a t.len →
      exec (.build id a c) s =
        .next ({ s.placed a (buildCmd t c none).bytes with
            acc8 := (buildCmd t c none).running, acc16 := (buildCmd t c none).crc }.succeed
          ((s.placed a (buildCmd t c none).bytes).olen.setWidth 32))) ∧
    (∀ s (id : Byte) a c t, s.config.val.templates[id.toNat]? = some t → ¬s.fits a t.len →
      exec (.build id a c) s = .next (s.raiseError .bufferOverflow)) ∧
    (∀ s (id : Byte) a c, 38 ≤ id.toNat → exec (.build id a c) s = .next (s.raiseError .commandNotFound)) ∧
    (∀ (c : Config) (id : Nat) t, c.templates[id]? = some t → t.len < 2 → lookup c id = .error .invalidCommandLength) ∧
    Spelled 0x20#8 (fun w => zeroBits w 47 41 ∧ zeroBits w 39 16) fun w =>
      .build (w.extractLsb' 48 8) (w.getLsbD 40) (w.extractLsb' 0 16)

/-- R181: BUILD_TWIST builds the twist template with the `joy` counter and the quantised parameters, and increments
`joy`. Which free values the quantisers are offered, and that a success uses three of them, is the model's choice, no rule
of the spec (DESIGN CHOICE: notes/assumptions/3.md). -/
def Obligations.BuildTwistBuildsFromTheParameters : Prop :=
  (∀ s a, ∃ t v, s.config.val.templates[s.config.val.twistId]? = some t ∧
      v = (⟨q11 (Config.freeTwist s.draws) s.param0, q11 (Config.freeTwist (s.draws + 1)) s.param1,
        q11 (Config.freeTwist (s.draws + 2)) s.param2⟩ : TwistValues) ∧
      (s.fits a t.len → ∃ b, b = buildCmd t s.ctrJoy (some (twistSource s.config.val t v)) ∧
        exec (.buildTwist a) s =
          .next ({ s.placed a b.bytes with
              acc8 := b.running, acc16 := b.crc, ctrJoy := s.ctrJoy + 1#16, draws := s.draws + 3 }.succeed
            ((s.placed a b.bytes).olen.setWidth 32))) ∧
      (¬s.fits a t.len → exec (.buildTwist a) s = .next (s.raiseError .bufferOverflow))) ∧
    Spelled 0x21#8 (fun w => zeroBits w 55 41 ∧ zeroBits w 39 0) fun w => .buildTwist (w.getLsbD 40)

/-- R182: BUILD_GIMBAL builds the gimbal template with the `gimbal` counter and the quantised pitch and yaw, and
increments `gimbal`. Which free values the quantisers are offered, and that a success uses two of them, is the model's
choice, no rule of the spec (DESIGN CHOICE: notes/assumptions/3.md). -/
def Obligations.BuildGimbalBuildsFromTheParameters : Prop :=
  (∀ s a, ∃ t p y, s.config.val.templates[s.config.val.gimbalId]? = some t ∧
      p = q16 (Config.freeGimbal s.draws) s.param0 ∧ y = q16 (Config.freeGimbal (s.draws + 1)) s.param1 ∧
      (s.fits a t.len → ∃ b, b = buildCmd t s.ctrGimbal (some (gimbalSource t p y)) ∧
        exec (.buildGimbal a) s =
          .next ({ s.placed a b.bytes with
              acc8 := b.running, acc16 := b.crc, ctrGimbal := s.ctrGimbal + 1#16, draws := s.draws + 2 }.succeed
            ((s.placed a b.bytes).olen.setWidth 32))) ∧
      (¬s.fits a t.len → exec (.buildGimbal a) s = .next (s.raiseError .bufferOverflow))) ∧
    Spelled 0x22#8 (fun w => zeroBits w 55 41 ∧ zeroBits w 39 0) fun w => .buildGimbal (w.getLsbD 40)

/-- R183: BUILD_LED builds the LED template with the `led` counter and the colour, and increments `led`. -/
def Obligations.BuildLedBuildsTheColour : Prop :=
  (∀ s a red green blue, ∃ t, s.config.val.templates[s.config.val.ledId]? = some t ∧
      (s.fits a t.len → ∃ b, b = buildCmd t s.ctrLed (some (ledSource t ⟨red, green, blue⟩)) ∧
        exec (.buildLed a red green blue) s =
          .next ({ s.placed a b.bytes with
              acc8 := b.running, acc16 := b.crc, ctrLed := s.ctrLed + 1#16 }.succeed
            ((s.placed a b.bytes).olen.setWidth 32))) ∧
      (¬s.fits a t.len → exec (.buildLed a red green blue) s = .next (s.raiseError .bufferOverflow))) ∧
    Spelled 0x23#8 (fun w => zeroBits w 55 41 ∧ zeroBits w 39 24) fun w =>
      .buildLed (w.getLsbD 40) (w.extractLsb' 0 8) (w.extractLsb' 8 8) (w.extractLsb' 16 8)

/-- R184, R104: BUILD_TOUCH. The first array carries `joy` at offsets 6 and 7, the trailer is the CRC16 of both arrays,
`ACC8` is unchanged and `joy` is incremented. SPLIT cuts the command into the first array and the rest. -/
def Obligations.BuildTouchBuildsBothArrays : Prop :=
  (∀ s a, ∃ head tail : List Byte, s.config.val.touchA = head ++ tail ∧ head.length = 6 ∧ tail.length = 2 ∧
      ∃ first, first = head ++ [s.ctrJoy.extractLsb' 0 8, s.ctrJoy.extractLsb' 8 8] ∧
      ∃ body, body = first ++ s.config.val.touchB ∧
      ∃ last, last = [(crc16 body).extractLsb' 0 8, (crc16 body).extractLsb' 8 8] ∧ ∃ bytes, bytes = body ++ last ∧
        bytes.length = 10 + s.config.val.touchB.length ∧ splitBytes bytes = [first, s.config.val.touchB ++ last] ∧
        (s.fits a bytes.length →
          exec (.buildTouch a) s =
            .next ({ s.placed a bytes with acc16 := crc16 body, ctrJoy := s.ctrJoy + 1#16 }.succeed
              ((s.placed a bytes).olen.setWidth 32))) ∧
        (¬s.fits a bytes.length → exec (.buildTouch a) s = .next (s.raiseError .bufferOverflow))) ∧
    Spelled 0x24#8 (fun w => zeroBits w 55 41 ∧ zeroBits w 39 0) fun w => .buildTouch (w.getLsbD 40)

/-- R185, R105: BUILD_BOOT builds the commands of the boot range and then the LED-on command, each with counter 0; the
accumulators hold the LED-on build's values; no counter changes. -/
def Obligations.BuildBootBuildsTheSequence : Prop :=
  (∀ s a, ∃ t b seq, s.config.val.templates[s.config.val.ledId]? = some t ∧
      b = buildCmd t 0#16 (some (ledSource t s.config.val.bootLedColor)) ∧
      seq = ((List.range (s.config.val.bootLast + 1 - s.config.val.bootFirst)).map fun k =>
        (buildCmd (templateOf s.config.val (s.config.val.bootFirst + k)) 0#16 none).bytes).flatten ++ b.bytes ∧
      (s.fits a seq.length →
        exec (.buildBoot a) s =
          .next ({ s.placed a seq with acc8 := b.running, acc16 := b.crc }.succeed
            ((s.placed a seq).olen.setWidth 32))) ∧
      (¬s.fits a seq.length → exec (.buildBoot a) s = .next (s.raiseError .bufferOverflow))) ∧
    Spelled 0x25#8 (fun w => zeroBits w 55 41 ∧ zeroBits w 39 0) fun w => .buildBoot (w.getLsbD 40)

/-- R165, R186, W10 (R62): a build with `A = 0` of a template or of the boot sequence never overflows: it completes in every
state. The clause about BUILD_TOUCH rests on the model's reading of R6, that the capacity holds the touch command (DEDUCED:
notes/assumptions/5.md), and the clause about every identifier below 38 on its reading of R61, that each is present
(DEDUCED: notes/assumptions/9.md). -/
def Obligations.ReplacingBuildsAlwaysComplete : Prop :=
  ∀ s : State, (∀ (id : Byte) c, id.toNat < 38 → s.buildCompletes (.build id false c)) ∧
    (∀ red green blue, s.buildCompletes (.buildLed false red green blue)) ∧
    s.buildCompletes (.buildTwist false) ∧ s.buildCompletes (.buildGimbal false) ∧
    s.buildCompletes (.buildTouch false) ∧ s.buildCompletes (.buildBoot false)

/-- R171, L1 to L4 (R172): every twist offset carries each of its slices at its place and keeps the template's literal
bits outside them. -/
def Obligations.TwistBytesCarryTheSlices : Prop :=
  ∀ (c : AdmittedConfig) (t : Template) (k : Half) (v : TwistValues) (i : Nat) (slices : List Slice),
    c.val.templates[c.val.twistId]? = some t → (i, slices) ∈ c.val.twistLayout →
    ∃ b x, (buildCmd t k (some (twistSource c.val t v))).bytes[i]? = some b ∧ t.body[i]? = some x ∧
      (∀ sl ∈ slices, ∀ j < sl.width,
        b.getLsbD (sl.dst + j) = (v.get sl.field).getLsbD (sl.src + j)) ∧
      (∀ j < 8, (∀ sl ∈ slices, ¬(sl.dst ≤ j ∧ j < sl.dst + sl.width)) → b.getLsbD j = x.getLsbD j)

/-- R171, L2 (R172): no field bit is dropped. Two twist commands with the same bytes carry the same three values. -/
def Obligations.TwistCommandDeterminesItsFields : Prop :=
  ∀ (c : AdmittedConfig) (t : Template) (k : Half) (v u : TwistValues),
    c.val.templates[c.val.twistId]? = some t →
    (buildCmd t k (some (twistSource c.val t v))).bytes = (buildCmd t k (some (twistSource c.val t u))).bytes → v = u

/-- R173, R174, R67: the gimbal and LED commands carry, at each tagged offset that is neither a marker nor a counter
byte, the tag's byte: the low and high bytes of pitch and yaw, the colour bytes unchanged. With each `_LO` tag below its
`_HI` tag an axis is little-endian, as R67 has it; that other templates are admitted, and that the tags rule there, is the
model's reading of W6 (DEDUCED: notes/assumptions/14.md). -/
def Obligations.GimbalAndLedBytesStandAtTheirTags : Prop :=
  (∀ (c : AdmittedConfig) (t : Template) (k pitch yaw : Half) (i : Nat) (tag : ParamTag),
      c.val.templates[c.val.gimbalId]? = some t → (i, tag) ∈ t.param → i ∉ t.crc8 → i ≠ 6 → i ≠ 7 →
      ∃ b, (buildCmd t k (some (gimbalSource t pitch yaw))).bytes[i]? = some b ∧
        (tag, b) ∈ [(ParamTag.pitchLo, pitch.extractLsb' 0 8), (.pitchHi, pitch.extractLsb' 8 8),
          (.yawLo, yaw.extractLsb' 0 8), (.yawHi, yaw.extractLsb' 8 8)]) ∧
    ∀ (c : AdmittedConfig) (t : Template) (k : Half) (col : Color) (i : Nat) (tag : ParamTag),
      c.val.templates[c.val.ledId]? = some t → (i, tag) ∈ t.param → i ∉ t.crc8 → i ≠ 6 → i ≠ 7 →
      ∃ b, (buildCmd t k (some (ledSource t col))).bytes[i]? = some b ∧
        (tag, b) ∈ [(ParamTag.red, col.red), (.green, col.green), (.blue, col.blue)]

/-- R187 (c): VERIFY_CRC16 right after a BUILD, BUILD_TWIST, BUILD_GIMBAL, BUILD_LED or BUILD_TOUCH with `A = 0` that
succeeds answers 1. -/
def Obligations.VerifyHoldsAfterAReplacingBuild : Prop :=
  ∀ s t i d, exec i s = .next t → answered s t 0#4 d →
    ((∃ id c, i = .build id false c) ∨ i = .buildTwist false ∨ i = .buildGimbal false ∨
      (∃ r g b, i = .buildLed false r g b) ∨ i = .buildTouch false) →
    ∃ u, exec .verifyCrc16 t = .next u ∧ answered t u 0#4 1#32 ∧ statusV u.status = true

/-- R187 (c) is a law of each command and does not reach over the boot sequence, which R185 makes of several commands in
one buffer: there are a state and a BUILD_BOOT with `A = 0` after which the buffer does not verify
(notes/assumptions/13.md). -/
def Obligations.ABootNeedNotVerify : Prop :=
  ∃ s t u, exec (.buildBoot false) s = .next t ∧ exec .verifyCrc16 t = .next u ∧ answered t u 0#4 0#32

/-- R187 (e): what a build with `A = 0` writes depends only on the configuration, the counters, `PARAM`, the free values
and its operands: two states that agree on these get the same buffer, accumulators, counters and response data,
whatever `ACC8`, `ACC16`, `OBUF` and the other registers held. BUILD_TOUCH leaves `ACC8` out. That two runs with the same
count of draws get the same free values is the model's choice and not the spec's, where each draw is independent (DESIGN
CHOICE, unsafe for this claim: notes/assumptions/3.md). -/
def Obligations.BuildsDependOnNothingElse : Prop :=
  ∀ s₁ s₂ t₁ t₂ i, s₁.config = s₂.config → sameCounters s₁ s₂ → sameParams s₁ s₂ → s₁.draws = s₂.draws →
    ((∃ id c, i = .build id false c) ∨ i = .buildTwist false ∨ i = .buildGimbal false ∨
      (∃ r g b, i = .buildLed false r g b) ∨ i = .buildTouch false ∨ i = .buildBoot false) →
    exec i s₁ = .next t₁ → exec i s₂ = .next t₂ →
    ∃ code data, answered s₁ t₁ code data ∧ answered s₂ t₂ code data ∧ sameCounters t₁ t₂ ∧
      (code = 0#4 → t₁.obuf = t₂.obuf ∧ t₁.acc16 = t₂.acc16 ∧ (i ≠ .buildTouch false → t₁.acc8 = t₂.acc8))

/-! ### The quantisers -/

/-- R168, R170, R11: for a finite pattern, with `v` its exact value, `Q11` is `clamp(round(256*v + 1024), 0, 2047)` over
the rationals, halves away from zero; an infinity follows the clamp; a NaN takes the free value. -/
def Obligations.TwistQuantiserIsTheFormula : Prop :=
  ∀ (p : Word) (free : BitVec 11) (e m : Nat) (v : ℚ),
    e = (p.extractLsb' 23 8).toNat → m = (p.extractLsb' 0 23).toNat →
    v = (if p.getLsbD 31 then -1 else 1) *
      (if e = 0 then (m : ℚ) / 2 ^ 149 else ((2 ^ 23 + m : ℕ) : ℚ) * 2 ^ ((e : ℤ) - 150)) →
    (e ≠ 255 →
      ((q11 free p).toNat : ℤ) = max 0 (min 2047
        (if 0 ≤ 256 * v + 1024 then ⌊256 * v + 1024 + 1 / 2⌋ else -⌊-(256 * v + 1024) + 1 / 2⌋))) ∧
    (e = 255 → m = 0 → q11 free p = if p.getLsbD 31 then 0#11 else 2047#11) ∧
    (e = 255 → m ≠ 0 → q11 free p = free)

/-- R169, R170, R11: for a finite pattern, with `r` its exact value and `n = round(-1024*r)`, halves away from zero,
`Q16` is `n` as a 16-bit two's-complement value if `n` fits it; otherwise, and for a NaN or an infinity, it is the free
value. -/
def Obligations.GimbalQuantiserIsTheFormula : Prop :=
  ∀ (p : Word) (free : Half) (e m : Nat) (r : ℚ) (n : ℤ),
    e = (p.extractLsb' 23 8).toNat → m = (p.extractLsb' 0 23).toNat →
    r = (if p.getLsbD 31 then -1 else 1) *
      (if e = 0 then (m : ℚ) / 2 ^ 149 else ((2 ^ 23 + m : ℕ) : ℚ) * 2 ^ ((e : ℤ) - 150)) →
    n = (if 0 ≤ -1024 * r then ⌊-1024 * r + 1 / 2⌋ else -⌊-(-1024 * r) + 1 / 2⌋) →
    (e ≠ 255 → -32768 ≤ n → n ≤ 32767 → (q16 free p).toInt = n) ∧
    (e ≠ 255 → n < -32768 ∨ 32767 < n → q16 free p = free) ∧
    (e = 255 → q16 free p = free)

/-! ### The frame splitter (spec/42_frame_splitter.md) -/

/-- R200, R204 (a): `split(s)` has `ceil(N / 8)` chunks, chunk `k` is `s[8k .. min(8k + 8, N))`, every chunk but the last
has 8 bytes and the last 1 to 8, and the chunks in order are `s`. -/
def Obligations.SplitCutsAtEveryEighthByte : Prop :=
  ∀ s : List Byte,
    (splitBytes s).length = (s.length + 7) / 8 ∧ (splitBytes s).flatten = s ∧
    ∀ k chunk, (splitBytes s)[k]? = some chunk →
      (∀ i, chunk[i]? = if i < 8 then s[8 * k + i]? else none) ∧
      (k + 1 < (s.length + 7) / 8 → chunk.length = 8) ∧
      (k + 1 = (s.length + 7) / 8 → 1 ≤ chunk.length ∧ chunk.length = s.length - 8 * ((s.length + 7) / 8 - 1))

/-- R204 (c): splitting a sequence whose length is a multiple of 8 and then another is splitting them joined. -/
def Obligations.SplitOfWholeFramesIsSeparate : Prop :=
  ∀ s t : List Byte, s.length % 8 = 0 → splitBytes (s ++ t) = splitBytes s ++ splitBytes t

/-- R202, R201, R106: SPLIT appends, as one run and in chunk order, a standard data frame to 0x201 for each chunk, sets
`NFRAMES` to their number and leaves the buffer and everything else unchanged. -/
def Obligations.SplitEmitsTheChunksAsOneBurst : Prop :=
  (∀ s, exec .split s =
      .next ({ s with
          tx := s.tx ++ (splitBytes s.obuf).map fun (c : List Byte) => (⟨false, false, 0x201#29, c.length, c⟩ : CanFrame),
          nframes := BitVec.ofNat 16 ((s.obuf.length + 7) / 8) }.succeed
        (BitVec.ofNat 32 ((s.obuf.length + 7) / 8)))) ∧
    Spelled 0x30#8 (zeroBits · 55 0) fun _ => .split

/-! ### Telemetry (spec/43_telemetry_resync.md) -/

/-- R221, R222: a standard data frame to 0x201 with 8 data bytes that begin with the telemetry marker sets `joy` to its
little-endian counter plus one, and nothing else; any other frame has no effect. -/
def Obligations.RxResynchronisesJoyOnly : Prop :=
  (∀ (s : State) (f : CanFrame) (lo hi : Byte), f.ide = false → f.rtr = false → f.id = 0x201#29 → f.dlc = 8 →
      f.data = [0x55#8, 0x1B#8, 0x04#8, 0x75#8, 0x09#8, 0xC3#8, lo, hi] →
      rxEvent f s = { s with ctrJoy := (hi ++ lo) + 1#16 }) ∧
    ∀ (s : State) (f : CanFrame),
      ¬(f.ide = false ∧ f.rtr = false ∧ f.id = 0x201#29 ∧ f.dlc = 8 ∧
        ∃ lo hi, f.data = [0x55#8, 0x1B#8, 0x04#8, 0x75#8, 0x09#8, 0xC3#8, lo, hi]) →
      rxEvent f s = s

/-- R264, R223, for a BUILD_TOUCH with `A = 0`: an RX event and the command may come in either order. Before it, the event
sets the counter value the command carries; after it, the event overwrites the incremented value. That the command always
fits rests on the model's reading of R6 (DEDUCED: notes/assumptions/5.md). `EitherOrderOfJoyBuildsAndTelemetry` is about
BUILD_TWIST and both append flags. -/
def Obligations.EitherOrderOfTouchAndTelemetry : Prop :=
  ∀ (s : State) (f : CanFrame) (d : Half) (w : CommandWord) (rest : List Input),
    resyncValue f = some (d + 1#16) → decode w = .ok (.buildTouch false) →
    (∃ t u, step { s with inputs := .rx f :: .command w :: rest } = .next t ∧ step t = .next u ∧
      u.ctrJoy = d + 2#16 ∧ u.readByte 6 = some ((d + 1#16).extractLsb' 0 8) ∧
      u.readByte 7 = some ((d + 1#16).extractLsb' 8 8)) ∧
    ∃ t u, step { s with inputs := .command w :: .rx f :: rest } = .next t ∧ step t = .next u ∧
      u.ctrJoy = d + 1#16 ∧ u.readByte 6 = some (s.ctrJoy.extractLsb' 0 8) ∧
      u.readByte 7 = some (s.ctrJoy.extractLsb' 8 8)

/-- R264, R223, for BUILD_TWIST and BUILD_TOUCH with either append flag. Where the command fits, an event just before it
sets the counter value it carries and an event just after it overwrites the incremented value; where it does not, both
orders leave the buffer as it was and `joy` at the event's value. The order of the inputs is the environment's, held in
`State.inputs` (notes/assumptions/2.md). That the twist command has the same drawn fields in both orders, those of
`s.twistValues`, is the model's choice, no rule of the spec: R9 and I1 let two runs draw different values (DESIGN CHOICE,
unsafe for this claim: notes/assumptions/3.md). -/
def Obligations.EitherOrderOfJoyBuildsAndTelemetry : Prop :=
  ∀ (s : State) (f : CanFrame) (d : Half) (w : CommandWord) (rest : List Input) (a : Bool),
    resyncValue f = some (d + 1#16) →
    (decode w = .ok (.buildTwist a) → ∃ t, s.config.val.templates[s.config.val.twistId]? = some t ∧
      (s.fits a t.len →
        (∃ u, s.stepsTwice (.rx f) (.command w) rest u ∧ u.ctrJoy = d + 2#16 ∧
          u.obuf = s.kept a ++ (buildCmd t (d + 1#16) (some (twistSource s.config.val t s.twistValues))).bytes) ∧
        ∃ u, s.stepsTwice (.command w) (.rx f) rest u ∧ u.ctrJoy = d + 1#16 ∧
          u.obuf = s.kept a ++ (buildCmd t s.ctrJoy (some (twistSource s.config.val t s.twistValues))).bytes) ∧
      (¬s.fits a t.len →
        (∃ u, s.stepsTwice (.rx f) (.command w) rest u ∧ u.ctrJoy = d + 1#16 ∧ u.obuf = s.obuf) ∧
        ∃ u, s.stepsTwice (.command w) (.rx f) rest u ∧ u.ctrJoy = d + 1#16 ∧ u.obuf = s.obuf)) ∧
    (decode w = .ok (.buildTouch a) →
      (s.fits a (10 + s.config.val.touchB.length) →
        (∃ u, s.stepsTwice (.rx f) (.command w) rest u ∧ u.ctrJoy = d + 2#16 ∧
          u.readByte (s.base a + 6) = some ((d + 1#16).extractLsb' 0 8) ∧
          u.readByte (s.base a + 7) = some ((d + 1#16).extractLsb' 8 8)) ∧
        ∃ u, s.stepsTwice (.command w) (.rx f) rest u ∧ u.ctrJoy = d + 1#16 ∧
          u.readByte (s.base a + 6) = some (s.ctrJoy.extractLsb' 0 8) ∧
          u.readByte (s.base a + 7) = some (s.ctrJoy.extractLsb' 8 8)) ∧
      (¬s.fits a (10 + s.config.val.touchB.length) →
        (∃ u, s.stepsTwice (.rx f) (.command w) rest u ∧ u.ctrJoy = d + 1#16 ∧ u.obuf = s.obuf) ∧
        ∃ u, s.stepsTwice (.command w) (.rx f) rest u ∧ u.ctrJoy = d + 1#16 ∧ u.obuf = s.obuf))

/-! ### The whole machine -/

/-- R25, R24, R282: a command changes a counter only by incrementing its own family's, when it succeeds; no command sets
one. -/
def Obligations.CountersStepOnlyByTheirFamily : Prop :=
  ∀ i s t code data, exec i s = .next t → answered s t code data →
    t.ctrJoy = (if code = 0#4 ∧ ((∃ a, i = .buildTwist a) ∨ ∃ a, i = .buildTouch a)
      then s.ctrJoy + 1#16 else s.ctrJoy) ∧
    t.ctrLed = (if code = 0#4 ∧ (∃ a r g b, i = .buildLed a r g b) then s.ctrLed + 1#16 else s.ctrLed) ∧
    t.ctrGimbal = (if code = 0#4 ∧ (∃ a, i = .buildGimbal a) then s.ctrGimbal + 1#16 else s.ctrGimbal)

/-- R24: `n` LED builds in turn all succeed and take the `led` counter to `u16(led + n)`, so 65536 of them bring it
back. -/
def Obligations.LedCounterCountsItsBuilds : Prop :=
  ∀ (n : Nat) (s : State) (r g b : Byte), ∃ t,
    runCommands (List.replicate n (.buildLed false r g b)) s = .next t ∧
      t.ctrLed = BitVec.ofNat 16 (s.ctrLed.toNat + n) ∧ t.responses.length = s.responses.length + n ∧
      (∀ x ∈ t.responses.drop s.responses.length, x.code = 0#4) ∧ (n = 65536 → t.ctrLed = s.ctrLed)

/-- R22, R26, R27, R30, R32: which commands write the accumulators, the parameter registers and `NFRAMES`. -/
def Obligations.RegistersHaveOnlyTheirWriters : Prop :=
  ∀ i s t, exec i s = .next t →
    (t.acc8 ≠ s.acc8 → i = .crc8Init ∨ (∃ b, i = .crc8Update b) ∨ (∃ id a c, i = .build id a c) ∨
      (∃ a, i = .buildTwist a) ∨ (∃ a, i = .buildGimbal a) ∨ (∃ a r g b, i = .buildLed a r g b) ∨
      ∃ a, i = .buildBoot a) ∧
    (t.acc16 ≠ s.acc16 → i = .crc16Init ∨ (∃ b, i = .crc16Update b) ∨ i = .appendCrc16 ∨
      (∃ id a c, i = .build id a c) ∨ (∃ a, i = .buildTwist a) ∨ (∃ a, i = .buildGimbal a) ∨
      (∃ a r g b, i = .buildLed a r g b) ∨ (∃ a, i = .buildTouch a) ∨ ∃ a, i = .buildBoot a) ∧
    (¬sameParams s t → ∃ k v, i = .setp k v) ∧ (t.nframes ≠ s.nframes → i = .split)

/-- R28, R74: a command that stores nothing leaves every byte of the output buffer and its length as they were. -/
def Obligations.CommandsThatStoreNothingKeepTheBuffer : Prop :=
  ∀ i s t, exec i s = .next t →
    (i = .nop ∨ (∃ x, i = .readb x) ∨ (∃ r, i = .read r) ∨ (∃ k v, i = .setp k v) ∨ i = .crc8Init ∨
      (∃ b, i = .crc8Update b) ∨ i = .crc16Init ∨ (∃ b, i = .crc16Update b) ∨ i = .verifyCrc16 ∨ i = .split) →
    sameBuffer s t

/-- R28, R93, R165: PUSH and APPEND_CRC16 store from `OLEN` on and a build from `base` on: every byte below
`base`, so with `A = 1` every byte below `OLEN`, reads as before. -/
def Obligations.StoresGoBehindTheBase : Prop :=
  ∀ i s t j x, exec i s = .next t → s.readByte j = some x →
    ((∃ b, i = .push b) ∨ i = .appendCrc16 → t.readByte j = some x) ∧
    (∀ a, ((∃ id c, i = .build id a c) ∨ i = .buildTwist a ∨ i = .buildGimbal a ∨ (∃ r g b, i = .buildLed a r g b) ∨
      i = .buildTouch a ∨ i = .buildBoot a) → j < s.base a → t.readByte j = some x)

/-- R33: a step only appends to the TX stream, and only a SPLIT appends a frame. -/
def Obligations.TxStreamOnlyGrows : Prop :=
  (∀ s t, step s = .next t → ∃ new, t.tx = s.tx ++ new) ∧
    ∀ i s t, exec i s = .next t → i ≠ .split → t.tx = s.tx

/-- R21, R63, R281: no step changes the configuration, the template ROM included. -/
def Obligations.ConfigurationNeverChanges : Prop := ∀ s t, step s = .next t → t.config = s.config

/-- R260, R263, R266: no step stops: each answers a next state, whatever the state. -/
def Obligations.EveryStepGoesOn : Prop := ∀ s, ∃ t, step s = .next t

/-- R28, R29, R33, R202, R203, I5, I7: the invariant is kept by every step, from every state that has it. -/
def Obligations.StepKeepsTheInvariant : Prop := ∀ s t, Invariant s → step s = .next t → Invariant t

/-- R39: the state after reset, from any admitted configuration, has the invariant. -/
def Obligations.ResetMeetsTheInvariant : Prop := ∀ c : AdmittedConfig, Invariant (State.resetWith c)

/-- R39, R280: the value of every piece of state after reset. -/
def Obligations.ResetStateIsAsListed : Prop :=
  ∀ c : AdmittedConfig,
    (State.resetWith c).ctrJoy = 0#16 ∧ (State.resetWith c).ctrLed = 0#16 ∧ (State.resetWith c).ctrGimbal = 0#16 ∧
    (State.resetWith c).acc8 = 0x77#8 ∧ (State.resetWith c).acc16 = 0x3692#16 ∧ (State.resetWith c).obuf = [] ∧
    (State.resetWith c).olen = 0#16 ∧ (State.resetWith c).param0 = 0#32 ∧ (State.resetWith c).param1 = 0#32 ∧
    (State.resetWith c).param2 = 0#32 ∧ (State.resetWith c).status = 0#32 ∧ (State.resetWith c).nframes = 0#16 ∧
    (State.resetWith c).tx = [] ∧ (State.resetWith c).config = c
end

