-- ==== Sys2Proof/Laws/State.lean ====
section
/-! SUPPORT. What each update of the state does to each field, true by definition, so that no later proof unfolds one. -/

namespace Sys2Proof.Machine

variable (s : State)

/-! ### `succeed` -/

@[simp] theorem State.succeed_config (d : Word) : (s.succeed d).config = s.config := rfl
@[simp] theorem State.succeed_ctrJoy (d : Word) : (s.succeed d).ctrJoy = s.ctrJoy := rfl
@[simp] theorem State.succeed_ctrLed (d : Word) : (s.succeed d).ctrLed = s.ctrLed := rfl
@[simp] theorem State.succeed_ctrGimbal (d : Word) : (s.succeed d).ctrGimbal = s.ctrGimbal := rfl
@[simp] theorem State.succeed_acc8 (d : Word) : (s.succeed d).acc8 = s.acc8 := rfl
@[simp] theorem State.succeed_acc16 (d : Word) : (s.succeed d).acc16 = s.acc16 := rfl
@[simp] theorem State.succeed_obuf (d : Word) : (s.succeed d).obuf = s.obuf := rfl
@[simp] theorem State.succeed_param0 (d : Word) : (s.succeed d).param0 = s.param0 := rfl
@[simp] theorem State.succeed_param1 (d : Word) : (s.succeed d).param1 = s.param1 := rfl
@[simp] theorem State.succeed_param2 (d : Word) : (s.succeed d).param2 = s.param2 := rfl
@[simp] theorem State.succeed_status (d : Word) : (s.succeed d).status = setErr s.status .ok := rfl
@[simp] theorem State.succeed_nframes (d : Word) : (s.succeed d).nframes = s.nframes := rfl
@[simp] theorem State.succeed_tx (d : Word) : (s.succeed d).tx = s.tx := rfl
@[simp] theorem State.succeed_responses (d : Word) : (s.succeed d).responses = s.responses ++ [⟨0#4, d⟩] := rfl
@[simp] theorem State.succeed_inputs (d : Word) : (s.succeed d).inputs = s.inputs := rfl
@[simp] theorem State.succeed_draws (d : Word) : (s.succeed d).draws = s.draws := rfl

/-! ### `raiseError` -/

@[simp] theorem State.raiseError_config (e : ErrCode) : (s.raiseError e).config = s.config := rfl
@[simp] theorem State.raiseError_ctrJoy (e : ErrCode) : (s.raiseError e).ctrJoy = s.ctrJoy := rfl
@[simp] theorem State.raiseError_ctrLed (e : ErrCode) : (s.raiseError e).ctrLed = s.ctrLed := rfl
@[simp] theorem State.raiseError_ctrGimbal (e : ErrCode) : (s.raiseError e).ctrGimbal = s.ctrGimbal := rfl
@[simp] theorem State.raiseError_acc8 (e : ErrCode) : (s.raiseError e).acc8 = s.acc8 := rfl
@[simp] theorem State.raiseError_acc16 (e : ErrCode) : (s.raiseError e).acc16 = s.acc16 := rfl
@[simp] theorem State.raiseError_obuf (e : ErrCode) : (s.raiseError e).obuf = s.obuf := rfl
@[simp] theorem State.raiseError_param0 (e : ErrCode) : (s.raiseError e).param0 = s.param0 := rfl
@[simp] theorem State.raiseError_param1 (e : ErrCode) : (s.raiseError e).param1 = s.param1 := rfl
@[simp] theorem State.raiseError_param2 (e : ErrCode) : (s.raiseError e).param2 = s.param2 := rfl
@[simp] theorem State.raiseError_status (e : ErrCode) : (s.raiseError e).status = setErr s.status e := rfl
@[simp] theorem State.raiseError_nframes (e : ErrCode) : (s.raiseError e).nframes = s.nframes := rfl
@[simp] theorem State.raiseError_tx (e : ErrCode) : (s.raiseError e).tx = s.tx := rfl
@[simp] theorem State.raiseError_responses (e : ErrCode) : (s.raiseError e).responses = s.responses ++ [⟨e.code, 0#32⟩] := rfl
@[simp] theorem State.raiseError_inputs (e : ErrCode) : (s.raiseError e).inputs = s.inputs := rfl
@[simp] theorem State.raiseError_draws (e : ErrCode) : (s.raiseError e).draws = s.draws := rfl

/-! ### `answerRead` -/

@[simp] theorem State.answerRead_config (d : Word) : (s.answerRead d).config = s.config := rfl
@[simp] theorem State.answerRead_ctrJoy (d : Word) : (s.answerRead d).ctrJoy = s.ctrJoy := rfl
@[simp] theorem State.answerRead_ctrLed (d : Word) : (s.answerRead d).ctrLed = s.ctrLed := rfl
@[simp] theorem State.answerRead_ctrGimbal (d : Word) : (s.answerRead d).ctrGimbal = s.ctrGimbal := rfl
@[simp] theorem State.answerRead_acc8 (d : Word) : (s.answerRead d).acc8 = s.acc8 := rfl
@[simp] theorem State.answerRead_acc16 (d : Word) : (s.answerRead d).acc16 = s.acc16 := rfl
@[simp] theorem State.answerRead_obuf (d : Word) : (s.answerRead d).obuf = s.obuf := rfl
@[simp] theorem State.answerRead_param0 (d : Word) : (s.answerRead d).param0 = s.param0 := rfl
@[simp] theorem State.answerRead_param1 (d : Word) : (s.answerRead d).param1 = s.param1 := rfl
@[simp] theorem State.answerRead_param2 (d : Word) : (s.answerRead d).param2 = s.param2 := rfl
@[simp] theorem State.answerRead_status (d : Word) : (s.answerRead d).status = s.status := rfl
@[simp] theorem State.answerRead_nframes (d : Word) : (s.answerRead d).nframes = s.nframes := rfl
@[simp] theorem State.answerRead_tx (d : Word) : (s.answerRead d).tx = s.tx := rfl
@[simp] theorem State.answerRead_responses (d : Word) : (s.answerRead d).responses = s.responses ++ [⟨0#4, d⟩] := rfl
@[simp] theorem State.answerRead_inputs (d : Word) : (s.answerRead d).inputs = s.inputs := rfl
@[simp] theorem State.answerRead_draws (d : Word) : (s.answerRead d).draws = s.draws := rfl

/-! ### `emit` -/

@[simp] theorem State.emit_config (frames : List CanFrame) : (s.emit frames).config = s.config := rfl
@[simp] theorem State.emit_ctrJoy (frames : List CanFrame) : (s.emit frames).ctrJoy = s.ctrJoy := rfl
@[simp] theorem State.emit_ctrLed (frames : List CanFrame) : (s.emit frames).ctrLed = s.ctrLed := rfl
@[simp] theorem State.emit_ctrGimbal (frames : List CanFrame) : (s.emit frames).ctrGimbal = s.ctrGimbal := rfl
@[simp] theorem State.emit_acc8 (frames : List CanFrame) : (s.emit frames).acc8 = s.acc8 := rfl
@[simp] theorem State.emit_acc16 (frames : List CanFrame) : (s.emit frames).acc16 = s.acc16 := rfl
@[simp] theorem State.emit_obuf (frames : List CanFrame) : (s.emit frames).obuf = s.obuf := rfl
@[simp] theorem State.emit_param0 (frames : List CanFrame) : (s.emit frames).param0 = s.param0 := rfl
@[simp] theorem State.emit_param1 (frames : List CanFrame) : (s.emit frames).param1 = s.param1 := rfl
@[simp] theorem State.emit_param2 (frames : List CanFrame) : (s.emit frames).param2 = s.param2 := rfl
@[simp] theorem State.emit_status (frames : List CanFrame) : (s.emit frames).status = s.status := rfl
@[simp] theorem State.emit_nframes (frames : List CanFrame) : (s.emit frames).nframes = s.nframes := rfl
@[simp] theorem State.emit_tx (frames : List CanFrame) : (s.emit frames).tx = s.tx ++ frames := rfl
@[simp] theorem State.emit_responses (frames : List CanFrame) : (s.emit frames).responses = s.responses := rfl
@[simp] theorem State.emit_inputs (frames : List CanFrame) : (s.emit frames).inputs = s.inputs := rfl
@[simp] theorem State.emit_draws (frames : List CanFrame) : (s.emit frames).draws = s.draws := rfl

/-! ### `taken` -/

@[simp] theorem State.taken_config (rest : List Input) : (s.taken rest).config = s.config := rfl
@[simp] theorem State.taken_ctrJoy (rest : List Input) : (s.taken rest).ctrJoy = s.ctrJoy := rfl
@[simp] theorem State.taken_ctrLed (rest : List Input) : (s.taken rest).ctrLed = s.ctrLed := rfl
@[simp] theorem State.taken_ctrGimbal (rest : List Input) : (s.taken rest).ctrGimbal = s.ctrGimbal := rfl
@[simp] theorem State.taken_acc8 (rest : List Input) : (s.taken rest).acc8 = s.acc8 := rfl
@[simp] theorem State.taken_acc16 (rest : List Input) : (s.taken rest).acc16 = s.acc16 := rfl
@[simp] theorem State.taken_obuf (rest : List Input) : (s.taken rest).obuf = s.obuf := rfl
@[simp] theorem State.taken_param0 (rest : List Input) : (s.taken rest).param0 = s.param0 := rfl
@[simp] theorem State.taken_param1 (rest : List Input) : (s.taken rest).param1 = s.param1 := rfl
@[simp] theorem State.taken_param2 (rest : List Input) : (s.taken rest).param2 = s.param2 := rfl
@[simp] theorem State.taken_status (rest : List Input) : (s.taken rest).status = s.status := rfl
@[simp] theorem State.taken_nframes (rest : List Input) : (s.taken rest).nframes = s.nframes := rfl
@[simp] theorem State.taken_tx (rest : List Input) : (s.taken rest).tx = s.tx := rfl
@[simp] theorem State.taken_responses (rest : List Input) : (s.taken rest).responses = s.responses := rfl
@[simp] theorem State.taken_inputs (rest : List Input) : (s.taken rest).inputs = rest := rfl
@[simp] theorem State.taken_draws (rest : List Input) : (s.taken rest).draws = s.draws := rfl

/-! ### `placed` -/

@[simp] theorem State.placed_config (a : Bool) (bytes : List Byte) : (s.placed a bytes).config = s.config := rfl
@[simp] theorem State.placed_ctrJoy (a : Bool) (bytes : List Byte) : (s.placed a bytes).ctrJoy = s.ctrJoy := rfl
@[simp] theorem State.placed_ctrLed (a : Bool) (bytes : List Byte) : (s.placed a bytes).ctrLed = s.ctrLed := rfl
@[simp] theorem State.placed_ctrGimbal (a : Bool) (bytes : List Byte) : (s.placed a bytes).ctrGimbal = s.ctrGimbal := rfl
@[simp] theorem State.placed_acc8 (a : Bool) (bytes : List Byte) : (s.placed a bytes).acc8 = s.acc8 := rfl
@[simp] theorem State.placed_acc16 (a : Bool) (bytes : List Byte) : (s.placed a bytes).acc16 = s.acc16 := rfl
@[simp] theorem State.placed_obuf (a : Bool) (bytes : List Byte) : (s.placed a bytes).obuf = (if a then s.obuf else []) ++ bytes := rfl
@[simp] theorem State.placed_param0 (a : Bool) (bytes : List Byte) : (s.placed a bytes).param0 = s.param0 := rfl
@[simp] theorem State.placed_param1 (a : Bool) (bytes : List Byte) : (s.placed a bytes).param1 = s.param1 := rfl
@[simp] theorem State.placed_param2 (a : Bool) (bytes : List Byte) : (s.placed a bytes).param2 = s.param2 := rfl
@[simp] theorem State.placed_status (a : Bool) (bytes : List Byte) : (s.placed a bytes).status = s.status := rfl
@[simp] theorem State.placed_nframes (a : Bool) (bytes : List Byte) : (s.placed a bytes).nframes = s.nframes := rfl
@[simp] theorem State.placed_tx (a : Bool) (bytes : List Byte) : (s.placed a bytes).tx = s.tx := rfl
@[simp] theorem State.placed_responses (a : Bool) (bytes : List Byte) : (s.placed a bytes).responses = s.responses := rfl
@[simp] theorem State.placed_inputs (a : Bool) (bytes : List Byte) : (s.placed a bytes).inputs = s.inputs := rfl
@[simp] theorem State.placed_draws (a : Bool) (bytes : List Byte) : (s.placed a bytes).draws = s.draws := rfl

/-! ### `setCtr` -/

@[simp] theorem State.setCtr_joy (v : Half) : s.setCtr .joy v = { s with ctrJoy := v } := rfl
@[simp] theorem State.setCtr_led (v : Half) : s.setCtr .led v = { s with ctrLed := v } := rfl
@[simp] theorem State.setCtr_gimbal (v : Half) : s.setCtr .gimbal v = { s with ctrGimbal := v } := rfl
@[simp] theorem State.bumpCtr_joy : s.bumpCtr .joy = { s with ctrJoy := s.ctrJoy + 1#16 } := rfl
@[simp] theorem State.bumpCtr_led : s.bumpCtr .led = { s with ctrLed := s.ctrLed + 1#16 } := rfl
@[simp] theorem State.bumpCtr_gimbal : s.bumpCtr .gimbal = { s with ctrGimbal := s.ctrGimbal + 1#16 } := rfl

@[simp] theorem State.cap_eq : s.cap = s.config.val.obufCap := rfl

@[simp] theorem State.readByte_eq (i : Nat) : s.readByte i = s.obuf[i]? := rfl

@[simp] theorem State.olen_eq : s.olen = BitVec.ofNat 16 s.obuf.length := rfl

@[simp] theorem State.kept_eq (a : Bool) : s.kept a = if a then s.obuf else [] := rfl

end Sys2Proof.Machine
end

