-- ==== Sys2Proof/Laws/Ops.lean ====
section
/-! SUPPORT. One lemma for each shared operation, saying all it can do: the status fields, the buffer operations and
their canonical form, and the end of a command. -/

namespace Sys2Proof.Machine

/-! ### STATUS (R29) -/

@[simp] theorem statusErr_setErr (st : Word) (e : ErrCode) : statusErr (setErr st e) = e.code := by
  apply BitVec.eq_of_getLsbD_eq
  intro i hi
  simp only [statusErr, setErr, BitVec.getLsbD_extractLsb', BitVec.getLsbD_append]
  simp [hi]

@[simp] theorem upper_setErr (st : Word) (e : ErrCode) : (setErr st e).extractLsb' 4 28 = st.extractLsb' 4 28 := by
  apply BitVec.eq_of_getLsbD_eq
  intro i hi
  simp only [setErr, BitVec.getLsbD_extractLsb', BitVec.getLsbD_append]
  rw [if_neg (by omega)]
  simp [hi, show 4 + i - 4 = i by omega]

@[simp] theorem statusReserved_setErr (st : Word) (e : ErrCode) : statusReserved (setErr st e) = statusReserved st := by
  apply BitVec.eq_of_getLsbD_eq
  intro i hi
  simp only [statusReserved, setErr, BitVec.getLsbD_extractLsb', BitVec.getLsbD_append]
  rw [if_neg (by omega)]
  simp [hi, show 5 + i - 4 < 28 by omega, show 4 + (5 + i - 4) = 5 + i by omega]

@[simp] theorem statusV_setErr (st : Word) (e : ErrCode) : statusV (setErr st e) = statusV st := by
  simp only [statusV, setErr, BitVec.getLsbD_append]
  simp

@[simp] theorem statusErr_setV (st : Word) (v : Bool) : statusErr (setV st v) = statusErr st := by
  apply BitVec.eq_of_getLsbD_eq
  intro i hi
  simp only [statusErr, setV, BitVec.getLsbD_extractLsb', BitVec.getLsbD_append]
  simp [hi]

@[simp] theorem statusV_setV (st : Word) (v : Bool) : statusV (setV st v) = v := by
  simp only [statusV, setV, BitVec.getLsbD_append, BitVec.getLsbD_ofBool]
  simp

@[simp] theorem statusReserved_setV (st : Word) (v : Bool) : statusReserved (setV st v) = statusReserved st := by
  apply BitVec.eq_of_getLsbD_eq
  intro i hi
  simp only [statusReserved, setV, BitVec.getLsbD_extractLsb', BitVec.getLsbD_append]
  rw [if_neg (by omega), if_neg (by omega)]
  simp [hi, show 5 + i - 4 - 1 < 27 by omega, show 5 + (5 + i - 4 - 1) = 5 + i by omega]

/-- The result codes are 0 to 5 (R250). -/
theorem code_le_five (e : ErrCode) : e.code.toNat ≤ 5 := by cases e <;> decide

/-- Only `OK` has the code 0 (R250). -/
theorem code_eq_zero_iff (e : ErrCode) : e.code = 0#4 ↔ e = .ok := by cases e <;> decide

/-! ### The output buffer -/

/-- The canonical form, as a bound. -/
@[simp] theorem Memory.wf_iff (cap : Nat) (m : Memory) : Memory.wf cap m = true ↔ m.length ≤ cap := by
  simp only [Memory.wf, decide_eq_true_eq]

/-- All that appending bytes can do (R232, R136). -/
theorem appendBytes_eq (s : State) (bytes : List Byte) :
    s.appendBytes bytes =
      if s.obuf.length + bytes.length ≤ s.cap then .ok { s with obuf := s.obuf ++ bytes } else .error .bufferOverflow := by
  by_cases h : s.obuf.length + bytes.length ≤ s.cap
  · rw [State.appendBytes, if_neg (by omega), if_pos h]; rfl
  · rw [State.appendBytes, if_pos (by omega), if_neg h]

/-- All that placing built bytes can do (R165). -/
theorem place_eq (s : State) (a : Bool) (bytes : List Byte) :
    (s.fits a bytes.length → s.place a bytes = .ok (s.placed a bytes)) ∧
      (¬s.fits a bytes.length → s.place a bytes = .error .bufferOverflow) := by
  have hb : s.base a = if a then s.obuf.length else 0 := by cases a <;> rfl
  constructor <;> intro h <;> simp only [State.fits] at h
  · rw [State.place, hb, if_neg (by simp only [State.cap]; omega)]; rfl
  · rw [State.place, hb, if_pos (by simp only [State.cap]; omega)]

/-- Appending keeps the buffer within its capacity. -/
theorem appendBytes_keeps_wf {s t : State} {bytes : List Byte} (h : s.appendBytes bytes = .ok t) :
    Memory.wf t.cap t.obuf = true := by
  rw [appendBytes_eq] at h
  split at h
  · cases h
    simpa using ‹_›
  · cases h

/-- Placing keeps the buffer within its capacity, whatever was in it. -/
theorem place_keeps_wf {s t : State} {a : Bool} {bytes : List Byte} (h : s.place a bytes = .ok t) :
    Memory.wf t.cap t.obuf = true := by
  by_cases hf : s.fits a bytes.length
  · rw [(place_eq s a bytes).1 hf] at h
    cases h
    cases a <;> simpa [State.fits] using hf
  · rw [(place_eq s a bytes).2 hf] at h
    cases h

/-- The empty buffer is within every capacity: CLEAR and reset keep the form. -/
theorem wf_nil (cap : Nat) : Memory.wf cap [] = true := by simp

/-! ### The end of a command -/

@[simp] theorem complete_ok (s t : State) (d : Word) : complete s (.ok (t, d)) = .next (t.succeed d) := rfl

@[simp] theorem complete_error (s : State) (e : ErrCode) : complete s (.error e) = .next (s.raiseError e) := rfl

/-- READ's registers: a value for the numbers 0x00 to 0x0B and none above (R38). -/
theorem register_eq_none_iff (s : State) (r : Byte) : s.register r = none ↔ 0x0B < r.toNat := by
  rw [State.register]
  split <;> simp_all
  omega

/-- SETP's registers: the indices 0 to 2 (R94 (e)). -/
theorem setParam_eq_none_iff (s : State) (k : Byte) (v : Word) : s.setParam k v = none ↔ 2 < k.toNat := by
  rw [State.setParam]
  split <;> simp_all
  omega

end Sys2Proof.Machine
end

