-- ==== Sys2Proof/Laws/Admission.lean ====
section
/-! SUPPORT. What an admitted configuration gives (spec/20_memory.md R62, spec/41_command_builder.md R172), and the lookup
of its templates (R161). -/

namespace Sys2Proof.Machine

/-- The checks of an admitted configuration, one by one. -/
structure Checks (c : Config) : Prop where
  size : c.templates.length = 38
  shape : c.TemplateShape
  ranges : c.Ranges
  w1 : c.W1
  w2 : c.W2
  w3 : c.W3
  w4 : c.W4
  w5 : c.W5
  w6 : c.W6
  w7 : c.W7
  w8 : c.W8
  w9 : c.W9
  w10 : c.W10
  slices : c.SliceShape
  l1 : c.L1
  l2 : c.L2
  l3 : c.L3
  l4 : c.L4

/-- An admitted configuration passes every check. -/
theorem checks (c : AdmittedConfig) : Checks c.val := by
  have h := c.property
  simp only [Config.admitted, Config.templatesAdmitted, Config.layoutAdmitted, Bool.and_eq_true, decide_eq_true_eq] at h
  obtain ⟨⟨⟨⟨⟨⟨⟨⟨⟨⟨⟨⟨⟨h0, hs⟩, hr⟩, h1⟩, h2⟩, h3⟩, h4⟩, h5⟩, h6⟩, h7⟩, h8⟩, h9⟩, h10⟩, ⟨⟨⟨l0, l1⟩, l2⟩, l3⟩, l4⟩ := h
  exact ⟨h0, hs, hr, h1, h2, h3, h4, h5, h6, h7, h8, h9, h10, l0, l1, l2, l3, l4⟩

/-- A present template is looked up without error (R161 under W1). -/
theorem lookup_present (c : AdmittedConfig) {id : Nat} {t : Template} (h : c.val.templates[id]? = some t) :
    lookup c.val id = .ok t := by
  have := (checks c).w1 t (List.mem_of_getElem? h)
  rw [lookup, Config.template?, h]
  exact if_neg (by omega)

/-- An identifier from 38 on is absent (R61). -/
theorem lookup_absent (c : AdmittedConfig) {id : Nat} (h : 38 ≤ id) : lookup c.val id = .error .commandNotFound := by
  rw [lookup, Config.template?, List.getElem?_eq_none (by rw [(checks c).size]; exact h)]

/-- An identifier below 38 is present (R61). -/
theorem template_present (c : AdmittedConfig) {id : Nat} (h : id < 38) : ∃ t, c.val.templates[id]? = some t :=
  ⟨_, List.getElem?_eq_getElem (by rw [(checks c).size]; exact h)⟩

/-- The lookup of an admitted configuration, whole. -/
theorem lookup_cases (c : AdmittedConfig) (id : Nat) :
    (∃ t, c.val.templates[id]? = some t ∧ lookup c.val id = .ok t) ∨ lookup c.val id = .error .commandNotFound := by
  by_cases h : id < 38
  · obtain ⟨t, ht⟩ := template_present c h
    exact .inl ⟨t, ht, lookup_present c ht⟩
  · exact .inr (lookup_absent c (by omega))

/-- The twist template is present (W4). -/
theorem twist_present (c : AdmittedConfig) : ∃ t, c.val.templates[c.val.twistId]? = some t :=
  Option.isSome_iff_exists.1 (checks c).w4.1

/-- The gimbal template is present (W4). -/
theorem gimbal_present (c : AdmittedConfig) : ∃ t, c.val.templates[c.val.gimbalId]? = some t :=
  Option.isSome_iff_exists.1 (checks c).w4.2.1

/-- The LED template is present (W4). -/
theorem led_present (c : AdmittedConfig) : ∃ t, c.val.templates[c.val.ledId]? = some t :=
  Option.isSome_iff_exists.1 (checks c).w4.2.2.1

/-- A present template's command has at least its trailer and fits the empty buffer (W1, W10). -/
theorem len_bounds (c : AdmittedConfig) {id : Nat} {t : Template} (h : c.val.templates[id]? = some t) :
    2 ≤ t.len ∧ t.len ≤ c.val.obufCap :=
  ⟨(checks c).w1 t (List.mem_of_getElem? h), (checks c).w10.1 t (List.mem_of_getElem? h)⟩

/-- Every identifier of the boot range is present (R6, R61). -/
theorem bootIds_present (c : AdmittedConfig) {id : Nat} (h : id ∈ c.val.bootIds) : id < 38 := by
  obtain ⟨-, -, h1, h2, -⟩ := (checks c).ranges
  simp only [Config.bootIds, List.mem_range'_1] at h
  simp only [nTemplates] at h2
  omega

end Sys2Proof.Machine
end

