-- ==== Sys2Proof/Laws/Build.lean ====
section
/-! SUPPORT. The walk over a template (spec/41_command_builder.md R164) and the builds made of it: one lemma for each
shared operation. -/

namespace Sys2Proof.Machine

variable (t : Template) (c : Half) (p : Option ParamSource)

/-! ### The walk -/

/-- One offset more is one byte more. -/
theorem walk_succ (n : Nat) :
    walk t c p (n + 1) =
      ((walk t c p n).1 ++ [emittedByte t c p (walk t c p n).2 n],
        crc8Step (walk t c p n).2 (emittedByte t c p (walk t c p n).2 n)) := rfl

@[simp] theorem walk_length (n : Nat) : (walk t c p n).1.length = n := by
  induction n with
  | zero => rfl
  | succ n ih => simp [walk_succ, ih]

/-- The running CRC8 covers exactly the bytes emitted so far (R164). -/
theorem walk_running (n : Nat) : (walk t c p n).2 = crc8 (walk t c p n).1 := by
  induction n with
  | zero => rfl
  | succ n ih => simp [walk_succ, crc8, ih]

/-- What is emitted first stays in front. -/
theorem walk_take {m n : Nat} (h : m ≤ n) : (walk t c p n).1.take m = (walk t c p m).1 := by
  induction n with
  | zero => obtain rfl : m = 0 := by omega
            rfl
  | succ n ih =>
    by_cases hm : m = n + 1
    · subst hm
      exact List.take_of_length_le (by simp)
    · rw [walk_succ, List.take_append_of_le_length (by simp; omega), ih (by omega)]

/-- The byte of an offset is the one its role gives, with the CRC8 of the bytes before it (R163, R164). -/
theorem walk_get {i n : Nat} (h : i < n) :
    (walk t c p n).1[i]? = some (emittedByte t c p (crc8 (walk t c p i).1) i) := by
  have : ((walk t c p n).1.take (i + 1))[i]? = (walk t c p n).1[i]? := by simp
  rw [← this, walk_take t c p (by omega), walk_succ, ← walk_running]
  simp

/-! ### A built command -/

/-- A built command is its body and its trailer, and returns the checksums of its body. -/
theorem buildCmd_eq :
    buildCmd t c p =
      { bytes := (walk t c p t.bodyLen).1 ++ trailer (crc16 (walk t c p t.bodyLen).1),
        running := crc8 (walk t c p t.bodyLen).1, crc := crc16 (walk t c p t.bodyLen).1 } := by
  rw [← walk_running]
  rfl

/-- A built command has `L` bytes (R187 (a)). -/
theorem buildCmd_length (h : 2 ≤ t.len) : (buildCmd t c p).bytes.length = t.len := by
  simp [buildCmd_eq, trailer, Template.bodyLen]
  omega

/-- The body bytes of a built command (R163). -/
theorem buildCmd_get {i : Nat} (h : i < t.bodyLen) :
    (buildCmd t c p).bytes[i]? = some (emittedByte t c p (crc8 ((buildCmd t c p).bytes.take i)) i) := by
  have ht : (buildCmd t c p).bytes.take i = (walk t c p i).1 := by
    rw [buildCmd_eq, List.take_append_of_le_length (by simp; omega), walk_take t c p h.le]
  rw [ht, buildCmd_eq, List.getElem?_append_left (by simpa using h), walk_get t c p h]

/-! ### The shared operations of the builds -/

/-- All a template build can do in a state with an admitted configuration (R160, R167). -/
theorem templateBuild_eq (s : State) (id : Nat) (a : Bool) (k : Half) (src : Template → Option ParamSource) :
    (∀ u, s.config.val.templates[id]? = some u → s.fits a u.len →
      templateBuild s id a k src = .ok { s.placed a (buildCmd u k (src u)).bytes with
        acc8 := (buildCmd u k (src u)).running, acc16 := (buildCmd u k (src u)).crc }) ∧
    (∀ u, s.config.val.templates[id]? = some u → ¬s.fits a u.len →
      templateBuild s id a k src = .error .bufferOverflow) ∧
    (38 ≤ id → templateBuild s id a k src = .error .commandNotFound) := by
  refine ⟨fun u hu hf => ?_, fun u hu hf => ?_, fun h => ?_⟩
  · have hl := buildCmd_length u k (src u) (len_bounds _ hu).1
    simp only [templateBuild, lookup_present _ hu]
    rw [(place_eq s a _).1 (by rwa [hl])]
  · have hl := buildCmd_length u k (src u) (len_bounds _ hu).1
    simp only [templateBuild, lookup_present _ hu]
    rw [(place_eq s a _).2 (by rwa [hl])]
  · simp only [templateBuild, lookup_absent _ h]

/-- All a template build can do, as cases of what it answers. -/
theorem templateBuild_cases (s : State) (id : Nat) (a : Bool) (k : Half) (src : Template → Option ParamSource) :
    (∃ u, s.config.val.templates[id]? = some u ∧ s.fits a u.len ∧
      templateBuild s id a k src = .ok { s.placed a (buildCmd u k (src u)).bytes with
        acc8 := (buildCmd u k (src u)).running, acc16 := (buildCmd u k (src u)).crc }) ∨
    ∃ e, e ≠ .ok ∧ templateBuild s id a k src = .error e := by
  obtain ⟨h1, h2, h3⟩ := templateBuild_eq s id a k src
  by_cases hid : id < 38
  · obtain ⟨u, hu⟩ := template_present s.config hid
    by_cases hf : s.fits a u.len
    · exact .inl ⟨u, hu, hf, h1 u hu hf⟩
    · exact .inr ⟨.bufferOverflow, nofun, h2 u hu hf⟩
  · exact .inr ⟨.commandNotFound, nofun, h3 (by omega)⟩

/-- The boot range of present identifiers is the concatenation of their commands (R185). -/
theorem bootRange_eq (cfg : AdmittedConfig) (ids : List Nat) (h : ∀ id ∈ ids, id < 38) :
    bootRange cfg.val ids =
      .ok (ids.map fun id => (buildCmd (templateOf cfg.val id) 0#16 none).bytes).flatten := by
  induction ids with
  | nil => rfl
  | cons id rest ih =>
    obtain ⟨u, hu⟩ := template_present cfg (h id (by simp))
    have hd : templateOf cfg.val id = u := by simp [templateOf, Config.template?, hu]
    simp only [bootRange, lookup_present cfg hu, ih fun j hj => h j (by simp [hj]), List.map_cons,
      List.flatten_cons, hd]

/-- `touchA` with its counter bytes replaced (R184, R104). -/
theorem touchHead_eq (cfg : AdmittedConfig) (v : Half) :
    touchHead cfg.val v = cfg.val.touchA.take 6 ++ [lo8 v, hi8 v] := by
  have h8 := (checks cfg).ranges.1
  rw [touchHead]
  match cfg.val.touchA, h8 with
  | [_, _, _, _, _, _, _, _], _ => rfl

/-- The touch bytes are 8 and those of the second array (R184). -/
theorem touchBody_length (cfg : AdmittedConfig) (v : Half) :
    (touchBody cfg.val v).length = 8 + cfg.val.touchB.length := by
  have h8 := (checks cfg).ranges.1
  simp [touchBody, touchHead, h8]

/-- A trailer is two bytes. -/
@[simp] theorem trailer_length (v : Half) : (trailer v).length = 2 := rfl

end Sys2Proof.Machine
end

