-- ==== Sys2Proof/Laws/Crc.lean ====
section
/-! SUPPORT. The CRC16 step as a map: it forgets nothing of the running value or of the byte, and a value's own two
bytes take it to 0. The laws of spec/40_checksum.md R138 are built of these. -/

namespace Sys2Proof.Machine

/-- One round of the CRC16 undone: the round set bit 15 exactly if it shifted a 1 out. -/
def crc16Unround (x : Half) : Half := if x.getLsbD 15 then ((x ^^^ 0x8408#16) <<< 1) ||| 1#16 else x <<< 1

/-- Eight rounds undone from the high byte alone give the index back. -/
theorem crc16Table_undone : ∀ i : Byte, lo8 (crc16Unround^[8] (hi8 (crc16Table i) ++ 0#8)) = i := by decide +kernel

/-- The entries of `CRC16_TABLE` differ in their high bytes. -/
theorem crc16Table_high_injective {i j : Byte} (h : hi8 (crc16Table i) = hi8 (crc16Table j)) : i = j := by
  rw [← crc16Table_undone i, ← crc16Table_undone j, h]

@[simp] theorem crc16Table_zero : crc16Table 0#8 = 0#16 := by decide

/-- A 16-bit value is its two bytes. -/
theorem le16_lo8_hi8 (v : Half) : le16 (lo8 v) (hi8 v) = v := by
  apply BitVec.eq_of_getLsbD_eq
  intro i hi
  simp only [le16, lo8, hi8, BitVec.getLsbD_append, BitVec.getLsbD_extractLsb']
  split
  · simp [*]
  · simp [show i - 8 < 8 by omega, show 8 + (i - 8) = i by omega]

@[simp] theorem lo8_le16 (lo hi : Byte) : lo8 (le16 lo hi) = lo := by
  apply BitVec.eq_of_getLsbD_eq
  intro i h
  simp only [le16, lo8, BitVec.getLsbD_append, BitVec.getLsbD_extractLsb']
  simp [h]

@[simp] theorem hi8_le16 (lo hi : Byte) : hi8 (le16 lo hi) = hi := by
  apply BitVec.eq_of_getLsbD_eq
  intro i h
  simp only [le16, hi8, BitVec.getLsbD_append, BitVec.getLsbD_extractLsb']
  simp [h]

/-- Two 16-bit values with the same bytes are the same. -/
theorem half_ext {v u : Half} (hl : lo8 v = lo8 u) (hh : hi8 v = hi8 u) : v = u := by
  rw [← le16_lo8_hi8 v, ← le16_lo8_hi8 u, hl, hh]

/-- The bytes of a step's result. -/
theorem lo8_crc16Step (c : Half) (b : Byte) : lo8 (crc16Step c b) = hi8 c ^^^ lo8 (crc16Table (lo8 c ^^^ b)) := by
  have : lo8 (c ^^^ b.setWidth 16) = lo8 c ^^^ b := by
    apply BitVec.eq_of_getLsbD_eq
    intro i h
    simp [lo8, h, show i < 16 by omega]
  rw [crc16Step, this]
  apply BitVec.eq_of_getLsbD_eq
  intro i h
  simp [lo8, hi8, h, BitVec.getLsbD_ushiftRight]

theorem hi8_crc16Step (c : Half) (b : Byte) : hi8 (crc16Step c b) = hi8 (crc16Table (lo8 c ^^^ b)) := by
  have : lo8 (c ^^^ b.setWidth 16) = lo8 c ^^^ b := by
    apply BitVec.eq_of_getLsbD_eq
    intro i h
    simp [lo8, h, show i < 16 by omega]
  rw [crc16Step, this]
  apply BitVec.eq_of_getLsbD_eq
  intro i h
  simp [hi8, h, BitVec.getLsbD_ushiftRight, BitVec.getLsbD_of_ge c (8 + (8 + i)) (by omega)]

/-- A step forgets nothing of the running value. -/
theorem crc16Step_injective_left {c d : Half} {b : Byte} (h : crc16Step c b = crc16Step d b) : c = d := by
  have hh := congrArg hi8 h
  rw [hi8_crc16Step, hi8_crc16Step] at hh
  have hx := crc16Table_high_injective hh
  have hl := congrArg lo8 h
  rw [lo8_crc16Step, lo8_crc16Step, hx] at hl
  exact half_ext ((BitVec.xor_left_inj _).1 hx) ((BitVec.xor_left_inj _).1 hl)

/-- A step forgets nothing of the byte. -/
theorem crc16Step_injective_right {c : Half} {a b : Byte} (h : crc16Step c a = crc16Step c b) : a = b := by
  have hh := congrArg hi8 h
  rw [hi8_crc16Step, hi8_crc16Step] at hh
  exact (BitVec.xor_right_inj _).1 (crc16Table_high_injective hh)

/-- Steps over a sequence forget nothing of the running value. -/
theorem crc16_fold_injective (bytes : List Byte) {c d : Half}
    (h : bytes.foldl crc16Step c = bytes.foldl crc16Step d) : c = d := by
  induction bytes generalizing c d with
  | nil => exact h
  | cons b rest ih => exact crc16Step_injective_left (ih h)

/-- Two bytes take a running value to 0 exactly if they are its own, low byte first. -/
theorem crc16Step_two_eq_zero_iff (c : Half) (lo hi : Byte) :
    crc16Step (crc16Step c lo) hi = 0#16 ↔ c = le16 lo hi := by
  have own : ∀ v : Half, crc16Step (crc16Step v (lo8 v)) (hi8 v) = 0#16 := by
    intro v
    have h1 : lo8 (crc16Step v (lo8 v)) = hi8 v := by rw [lo8_crc16Step]; simp [lo8]
    have h2 : hi8 (crc16Step v (lo8 v)) = 0#8 := by rw [hi8_crc16Step]; simp [hi8]
    apply half_ext
    · rw [lo8_crc16Step, h1, h2]; simp [lo8]
    · rw [hi8_crc16Step, h1]; simp [hi8]
  constructor
  · intro h
    have h' := own (le16 lo hi)
    rw [lo8_le16, hi8_le16, ← h] at h'
    exact (crc16Step_injective_left (crc16Step_injective_left h')).symm
  · rintro rfl
    simpa using own (le16 lo hi)

/-- A checksum over a joined sequence goes on from the first part's (R138 (b)). -/
theorem crc16_append (s t : List Byte) : crc16 (s ++ t) = t.foldl crc16Step (crc16 s) := by
  simp [crc16]

theorem crc8_append (s t : List Byte) : crc8 (s ++ t) = t.foldl crc8Step (crc8 s) := by
  simp [crc8]

/-- The check of a buffer whose last two bytes are named (R137). -/
theorem verifies_append (head : List Byte) (lo hi : Byte) :
    verifies (head ++ [lo, hi]) = (crc16 head == le16 lo hi) := by
  simp [verifies]

/-- A buffer of fewer than two bytes never verifies (R137). -/
theorem verifies_short {m : List Byte} (h : m.length < 2) : verifies m = false := by
  simp [verifies, h]

/-- A buffer of at least two bytes ends in two. -/
theorem exists_last_two {m : List Byte} (h : 2 ≤ m.length) : ∃ head lo hi, m = head ++ [lo, hi] := by
  refine ⟨m.take (m.length - 2), m[m.length - 2], m[m.length - 1], ?_⟩
  conv_lhs => rw [← List.take_append_drop (m.length - 2) m]
  congr 1
  apply List.ext_getElem
  · simp; omega
  · intro i h1 h2
    simp only [List.length_cons, List.length_nil] at h2
    obtain rfl | rfl : i = 0 ∨ i = 1 := by omega
    · simp
    · simp; congr 1; omega

end Sys2Proof.Machine
end

