-- ==== Sys2Proof/Laws/Decode.lean ====
section
/-! SUPPORT. The fields of a command word, runs of zero bits, and what the decoder answers, in the terms of
spec/30_encoding.md R91 to R95. -/

namespace Sys2Proof.Machine

/-- Every bit of a word made from its fields. -/
theorem getLsbD_commandWord (opc sel : Byte) (a : Bool) (imm : Word) (i : Nat) :
    (commandWord opc sel a imm).getLsbD i =
      if i < 32 then imm.getLsbD i else if i < 40 then false else if i < 41 then a
      else if i < 48 then false else if i < 56 then sel.getLsbD (i - 48) else opc.getLsbD (i - 56) := by
  simp only [commandWord, BitVec.getLsbD_append, BitVec.getLsbD_ofBool, BitVec.getLsbD_zero]
  by_cases h1 : i < 32
  · rw [if_pos h1, if_pos h1]
  rw [if_neg h1, if_neg h1]
  by_cases h2 : i < 40
  · rw [if_pos h2, if_pos (by omega)]
  rw [if_neg h2, if_neg (by omega)]
  by_cases h3 : i < 41
  · rw [if_pos h3, if_pos (by omega)]
    simp [show i = 40 by omega]
  rw [if_neg h3, if_neg (by omega)]
  by_cases h4 : i < 48
  · rw [if_pos h4, if_pos (by omega)]
  rw [if_neg h4, if_neg (by omega)]
  by_cases h5 : i < 56
  · rw [if_pos h5, if_pos (by omega)]; congr 1
  · rw [if_neg h5, if_neg (by omega)]; congr 1

@[simp] theorem opcField_commandWord (opc sel : Byte) (a : Bool) (imm : Word) : opcField (commandWord opc sel a imm) = opc := by
  apply BitVec.eq_of_getLsbD_eq
  intro i hi
  simp only [opcField, BitVec.getLsbD_extractLsb', hi, decide_true, Bool.true_and, getLsbD_commandWord]
  repeat rw [if_neg (by omega)]
  congr 1; omega

@[simp] theorem selField_commandWord (opc sel : Byte) (a : Bool) (imm : Word) : selField (commandWord opc sel a imm) = sel := by
  apply BitVec.eq_of_getLsbD_eq
  intro i hi
  simp only [selField, BitVec.getLsbD_extractLsb', hi, decide_true, Bool.true_and, getLsbD_commandWord]
  iterate 4 rw [if_neg (by omega)]
  rw [if_pos (by omega)]
  congr 1; omega

@[simp] theorem flgField_commandWord (opc sel : Byte) (a : Bool) (imm : Word) : flgField (commandWord opc sel a imm) = 0#7 := by
  apply BitVec.eq_of_getLsbD_eq
  intro i hi
  simp only [flgField, BitVec.getLsbD_extractLsb', hi, decide_true, Bool.true_and, getLsbD_commandWord, BitVec.getLsbD_zero]
  iterate 3 rw [if_neg (by omega)]
  rw [if_pos (by omega)]

@[simp] theorem aFlag_commandWord (opc sel : Byte) (a : Bool) (imm : Word) : aFlag (commandWord opc sel a imm) = a := by
  rw [aFlag, getLsbD_commandWord]; rfl

@[simp] theorem rsvField_commandWord (opc sel : Byte) (a : Bool) (imm : Word) : rsvField (commandWord opc sel a imm) = 0#8 := by
  apply BitVec.eq_of_getLsbD_eq
  intro i hi
  simp only [rsvField, BitVec.getLsbD_extractLsb', hi, decide_true, Bool.true_and, getLsbD_commandWord, BitVec.getLsbD_zero]
  rw [if_neg (by omega), if_pos (by omega)]

@[simp] theorem immField_commandWord (opc sel : Byte) (a : Bool) (imm : Word) : immField (commandWord opc sel a imm) = imm := by
  apply BitVec.eq_of_getLsbD_eq
  intro i hi
  simp only [immField, BitVec.getLsbD_extractLsb', hi, decide_true, Bool.true_and, getLsbD_commandWord, Nat.zero_add, if_true]

/-- A word whose reserved fields are zero is made from its other fields. -/
theorem commandWord_of_fields (w : CommandWord) (hf : flgField w = 0#7) (hr : rsvField w = 0#8) :
    commandWord (opcField w) (selField w) (aFlag w) (immField w) = w := by
  have bit (n lo i : Nat) (h : w.extractLsb' lo n = 0) (h1 : lo ≤ i) (h2 : i < lo + n) : w.getLsbD i = false := by
    have := congrArg (·.getLsbD (i - lo)) h
    simpa [BitVec.getLsbD_extractLsb', show i - lo < n by omega, show lo + (i - lo) = i by omega] using this
  apply BitVec.eq_of_getLsbD_eq
  intro i hi
  simp only [getLsbD_commandWord, immField, selField, opcField, aFlag, BitVec.getLsbD_extractLsb']
  repeat' split
  · simp [*]
  · exact (bit 8 32 i hr (by omega) (by omega)).symm
  · congr 1; omega
  · exact (bit 7 41 i hf (by omega) (by omega)).symm
  · rw [decide_eq_true (by omega)]; simp; congr 1; omega
  · rw [decide_eq_true (by omega)]; simp; congr 1; omega

/-- The fields determine a word. -/
theorem fields_ext {w v : CommandWord} (ho : opcField w = opcField v) (hs : selField w = selField v)
   (hf : flgField w = flgField v) (ha : aFlag w = aFlag v) (hr : rsvField w = rsvField v) (hi : immField w = immField v) : w = v := by
  have bit (n lo i : Nat) (h : w.extractLsb' lo n = v.extractLsb' lo n) (h1 : lo ≤ i) (h2 : i < lo + n) : w.getLsbD i = v.getLsbD i := by
    have := congrArg (·.getLsbD (i - lo)) h
    simpa [BitVec.getLsbD_extractLsb', show i - lo < n by omega, show lo + (i - lo) = i by omega] using this
  apply BitVec.eq_of_getLsbD_eq
  intro i h
  by_cases h1 : i < 32
  · exact bit 32 0 i hi (by omega) (by omega)
  by_cases h2 : i < 40
  · exact bit 8 32 i hr (by omega) (by omega)
  by_cases h3 : i < 41
  · rw [show i = 40 by omega]; exact ha
  by_cases h4 : i < 48
  · exact bit 7 41 i hf (by omega) (by omega)
  by_cases h5 : i < 56
  · exact bit 8 48 i hs (by omega) (by omega)
  · exact bit 8 56 i ho (by omega) (by omega)

/-- A field is zero exactly if each of its bits is. -/
theorem extract_eq_zero_iff {n : Nat} (w : BitVec n) (lo len : Nat) :
    w.extractLsb' lo len = 0 ↔ ∀ i, lo ≤ i → i < lo + len → w.getLsbD i = false := by
  constructor
  · intro h i h1 h2
    have := congrArg (·.getLsbD (i - lo)) h
    simpa [BitVec.getLsbD_extractLsb', show i - lo < len by omega, show lo + (i - lo) = i by omega] using this
  · intro h
    apply BitVec.eq_of_getLsbD_eq
    intro i hi
    simp [hi, h (lo + i) (by omega) (by omega)]

/-- A run of zero bits, bit by bit. -/
theorem zeroBits_iff (w : CommandWord) (hi lo : Nat) (h : lo ≤ hi + 1) :
    zeroBits w hi lo ↔ ∀ i, lo ≤ i → i ≤ hi → w.getLsbD i = false := by
  rw [zeroBits, extract_eq_zero_iff]
  exact forall_congr' fun i => imp_congr_right fun _ => by rw [show lo + (hi + 1 - lo) = hi + 1 by omega, Nat.lt_succ_iff]

/-- A run of zero bits cut in two. -/
theorem zeroBits_and_iff (w : CommandWord) (hi mid lo : Nat) (h1 : lo ≤ mid) (h2 : mid ≤ hi + 1):
    zeroBits w hi lo ↔ zeroBits w hi mid ∧ (lo < mid → zeroBits w (mid - 1) lo) := by
  rw [zeroBits_iff w hi lo (by omega), zeroBits_iff w hi mid h2]
  constructor
  · intro h
    refine ⟨fun i a b => h i (by omega) b, fun hl => ?_⟩
    rw [zeroBits_iff w (mid - 1) lo (by omega)]
    exact fun i a b => h i a (by omega)
  · rintro ⟨ha, hb⟩ i a b
    by_cases c : mid ≤ i
    · exact ha i c b
    · have := hb (by omega)
      rw [zeroBits_iff w (mid - 1) lo (by omega)] at this
      exact this i a (by omega)

/-- `SEL` is zero. -/
theorem selField_zero (w : CommandWord) : selField w = 0#8 ↔ zeroBits w 55 48 := Iff.rfl
/-- `FLG[7:1]` is zero. -/
theorem flgField_zero (w : CommandWord) : flgField w = 0#7 ↔ zeroBits w 47 41 := Iff.rfl
/-- `RSV` is zero. -/
theorem rsvField_zero (w : CommandWord) : rsvField w = 0#8 ↔ zeroBits w 39 32 := Iff.rfl
/-- `A` is zero. -/
theorem aFlag_false (w : CommandWord) : aFlag w = false ↔ zeroBits w 40 40 := by
  rw [zeroBits_iff _ _ _ (by omega)]
  exact ⟨fun h i h1 h2 => by rwa [show i = 40 by omega], fun h => h 40 (by omega) (by omega)⟩
/-- The bits of `IMM` from `k` on are zero. -/
theorem immField_shift_zero (w : CommandWord) (k : Nat) (hk : k ≤ 32) : immField w >>> k = 0#32 ↔ zeroBits w 31 k := by
  rw [zeroBits_iff _ _ _ (by omega)]
  constructor
  · intro h i h1 h2
    have := congrArg (·.getLsbD (i - k)) h
    simpa [immField, BitVec.getLsbD_ushiftRight, BitVec.getLsbD_extractLsb', show k + (i - k) = i by omega, show i < 32 by omega] using this
  · intro h
    apply BitVec.eq_of_getLsbD_eq
    intro i hi
    by_cases c : k + i < 32
    · simp [immField, BitVec.getLsbD_ushiftRight, c, h (k + i) (by omega) (by omega)]
    · simp [immField, BitVec.getLsbD_ushiftRight, BitVec.getLsbD_extractLsb', c]

/-- No unused bit is set, as runs of zero bits (R94 (c)). -/
theorem unusedZero_iff (f : Form) (w : CommandWord) :
    f.unusedZero w = true ↔ (f.usesSel = true ∨ zeroBits w 55 48) ∧ (f.usesA = true ∨ zeroBits w 40 40) ∧ zeroBits w 31 f.immWidth := by
  have : f.immWidth ≤ 32 := by cases f <;> decide
  simp [Form.unusedZero, ← immField_shift_zero w f.immWidth this, ← selField_zero, ← aFlag_false, and_assoc]

/-- A word that fails decode raises `ILLEGAL_OP`. -/
theorem decode_error_raises {w : CommandWord} {e : Reject} (h : decode w = .error e) : RaisesIllegalOp w := by
  intro s rest hs
  simp only [State.delivers] at hs
  simp [step, hs, commandStep, h, State.taken]

/-- When a word decodes, and to what (R94). -/
theorem decode_eq_ok_iff (w : CommandWord) (i : Instr) :
    decode w = .ok i ↔ ∃ f g, opcodeRow (opcField w).toNat = some (f, g) ∧ zeroBits w 47 41 ∧ zeroBits w 39 32 ∧
      f.unusedZero w = true ∧ (g w).wf = true ∧ g w = i := by
  rw [decode, ← flgField_zero, ← rsvField_zero]
  cases opcodeRow (opcField w).toNat with
  | none => simp
  | some r =>
    obtain ⟨f, g⟩ := r
    by_cases h1 : flgField w = 0#7 <;> by_cases h2 : rsvField w = 0#8 <;> by_cases h3 : f.unusedZero w = true <;>
      by_cases h4 : (g w).wf = true <;> simp [h1, h2, h3, h4]

/-- A row of the opcode map spells its command exactly in the words that pass the field checks. -/
theorem spelled_of_row {opc : Byte} {f : Form} {g : CommandWord → Instr} (row : opcodeRow opc.toNat = some (f, g)) :
    Spelled opc (fun w => zeroBits w 47 41 ∧ zeroBits w 39 32 ∧ f.unusedZero w = true ∧ (g w).wf = true) g := by
  rintro w rfl
  have key : decode w = .ok (g w) ↔ zeroBits w 47 41 ∧ zeroBits w 39 32 ∧ f.unusedZero w = true ∧ (g w).wf = true := by
    rw [decode_eq_ok_iff]
    constructor
    · rintro ⟨f', g', h, a, b, c, d, -⟩
      rw [row] at h
      cases h
      exact ⟨a, b, c, d⟩
    · rintro ⟨a, b, c, d⟩
      exact ⟨f, g, row, a, b, c, d, rfl⟩
  refine ⟨key.2, fun h => ?_⟩
  cases hd : decode w with
  | error e => exact decode_error_raises hd
  | ok i =>
    obtain ⟨f', g', h', a, b, c, d, -⟩ := (decode_eq_ok_iff w i).1 hd
    rw [row] at h'
    cases h'
    exact absurd ⟨a, b, c, d⟩ h

/-- The same legal words and the same command, said otherwise. -/
theorem spelled_congr {opc : Byte} {p q : CommandWord → Prop} {f g : CommandWord → Instr} (h : Spelled opc p f)
    (hpq : ∀ w, p w ↔ q w) (hfg : ∀ w, f w = g w) : Spelled opc q g := by
  obtain rfl : p = q := funext fun w => propext (hpq w)
  obtain rfl : f = g := funext hfg
  exact h

/-- A field of `IMM` is the same field of the word. -/
theorem low_of_imm (w : CommandWord) (lo n : Nat) (h : lo + n ≤ 32) : (immField w).extractLsb' lo n = w.extractLsb' lo n := by
  apply BitVec.eq_of_getLsbD_eq
  intro i hi
  simp [immField, hi, show lo + i < 32 by omega]

end Sys2Proof.Machine
end

