-- ==== Sys2Proof/Laws/Exec.lean ====
section
/-! SUPPORT. Said once: everything a command can do. `Effect s i u d` is the new state `u` and the response data `d` of a
command `i` that succeeds in `s`, before its answer is written; `exec_cases` says that a command either has its effect,
is a READ that answers, or raises an error. Later proofs split on these cases and unfold no meaning. -/

namespace Sys2Proof.Machine

/-- The effect of each command that succeeds (READ apart, which has none). -/
inductive Effect (s : State) : Instr → State → Word → Prop
  | nop : Effect s .nop s 0#32
  | clear : Effect s .clear { s with obuf := [] } 0#32
  | push (b : Byte) (fits : s.obuf.length + 1 ≤ s.cap) :
    Effect s (.push b) { s with obuf := s.obuf ++ [b] } (zext16 (BitVec.ofNat 16 (s.obuf.length + 1)))
  | readb (x : Half) (b : Byte) (present : s.obuf[x.toNat]? = some b) : Effect s (.readb x) s (zext8 b)
  | setp0 (v : Word) : Effect s (.setp 0#8 v) { s with param0 := v } 0#32
  | setp1 (v : Word) : Effect s (.setp 1#8 v) { s with param1 := v } 0#32
  | setp2 (v : Word) : Effect s (.setp 2#8 v) { s with param2 := v } 0#32
  | crc8Init : Effect s .crc8Init { s with acc8 := crc8Seed } (zext8 crc8Seed)
  | crc8Update (b : Byte) :
    Effect s (.crc8Update b) { s with acc8 := crc8Step s.acc8 b } (zext8 (crc8Step s.acc8 b))
  | crc16Init : Effect s .crc16Init { s with acc16 := crc16Seed } (zext16 crc16Seed)
  | crc16Update (b : Byte) :
    Effect s (.crc16Update b) { s with acc16 := crc16Step s.acc16 b } (zext16 (crc16Step s.acc16 b))
  | appendCrc16 (fits : s.obuf.length + 2 ≤ s.cap) :
    Effect s .appendCrc16 { s with obuf := s.obuf ++ trailer (crc16 s.obuf), acc16 := crc16 s.obuf }
      (zext16 (BitVec.ofNat 16 (s.obuf.length + 2)))
  | verifyCrc16 :
    Effect s .verifyCrc16 { s with status := setV s.status (verifies s.obuf) }
      ((BitVec.ofBool (verifies s.obuf)).setWidth 32)
  | build (id : Byte) (a : Bool) (c : Half) (t : Template) (present : s.config.val.templates[id.toNat]? = some t)
    (fits : s.fits a t.len) :
    Effect s (.build id a c) { s.placed a (buildCmd t c none).bytes with
      acc8 := (buildCmd t c none).running, acc16 := (buildCmd t c none).crc }
      (zext16 (s.placed a (buildCmd t c none).bytes).olen)
  | buildTwist (a : Bool) (t : Template) (b : Built)
    (present : s.config.val.templates[s.config.val.twistId]? = some t) (fits : s.fits a t.len)
    (built : b = buildCmd t s.ctrJoy (some (twistSource s.config.val t s.twistValues))) :
    Effect s (.buildTwist a) { s.placed a b.bytes with
      acc8 := b.running, acc16 := b.crc, ctrJoy := s.ctrJoy + 1#16, draws := s.draws + 3 }
      (zext16 (s.placed a b.bytes).olen)
  | buildGimbal (a : Bool) (t : Template) (b : Built)
    (present : s.config.val.templates[s.config.val.gimbalId]? = some t) (fits : s.fits a t.len)
    (built : b = buildCmd t s.ctrGimbal (some (gimbalSource t s.pitch s.yaw))) :
    Effect s (.buildGimbal a) { s.placed a b.bytes with
      acc8 := b.running, acc16 := b.crc, ctrGimbal := s.ctrGimbal + 1#16, draws := s.draws + 2 }
      (zext16 (s.placed a b.bytes).olen)
  | buildLed (a : Bool) (red green blue : Byte) (t : Template) (b : Built)
    (present : s.config.val.templates[s.config.val.ledId]? = some t) (fits : s.fits a t.len)
    (built : b = buildCmd t s.ctrLed (some (ledSource t ⟨red, green, blue⟩))) :
    Effect s (.buildLed a red green blue) { s.placed a b.bytes with
      acc8 := b.running, acc16 := b.crc, ctrLed := s.ctrLed + 1#16 } (zext16 (s.placed a b.bytes).olen)
  | buildTouch (a : Bool) (body : List Byte) (both : body = touchBody s.config.val s.ctrJoy)
    (fits : s.fits a (body ++ trailer (crc16 body)).length) :
    Effect s (.buildTouch a) { s.placed a (body ++ trailer (crc16 body)) with
      acc16 := crc16 body, ctrJoy := s.ctrJoy + 1#16 } (zext16 (s.placed a (body ++ trailer (crc16 body))).olen)
  | buildBoot (a : Bool) (t : Template) (b : Built) (seq : List Byte)
    (present : s.config.val.templates[s.config.val.ledId]? = some t)
    (built : b = buildCmd t 0#16 (some (ledSource t s.config.val.bootLedColor)))
    (whole : seq = (s.config.val.bootIds.map fun id => (buildCmd (templateOf s.config.val id) 0#16 none).bytes).flatten ++
      b.bytes) (fits : s.fits a seq.length) :
    Effect s (.buildBoot a) { s.placed a seq with acc8 := b.running, acc16 := b.crc }
      (zext16 (s.placed a seq).olen)
  | split : Effect s .split { s.emit ((splitBytes s.obuf).map frameOf) with
      nframes := BitVec.ofNat 16 (splitBytes s.obuf).length } (BitVec.ofNat 32 (splitBytes s.obuf).length)

/-- What a command can do: its effect, an error, or a READ's answer. -/
def Outcomes (s : State) (i : Instr) (r : Result) : Prop :=
  (∃ u d, Effect s i u d ∧ r = .next (u.succeed d)) ∨ (∃ e, e ≠ .ok ∧ r = .next (s.raiseError e)) ∨
    ∃ n v, i = .read n ∧ s.register n = some v ∧ r = .next (s.answerRead v)

/-- The boot sequence is computed without an error (R185 under R62). -/
theorem execBuildBoot_eq (s : State) (a : Bool) :
    ∃ t b seq, s.config.val.templates[s.config.val.ledId]? = some t ∧
      b = buildCmd t 0#16 (some (ledSource t s.config.val.bootLedColor)) ∧
      seq = (s.config.val.bootIds.map fun id => (buildCmd (templateOf s.config.val id) 0#16 none).bytes).flatten ++
        b.bytes ∧
      (s.fits a seq.length → execBuildBoot a s =
        .next ({ s.placed a seq with acc8 := b.running, acc16 := b.crc }.succeed (zext16 (s.placed a seq).olen))) ∧
      (¬s.fits a seq.length → execBuildBoot a s = .next (s.raiseError .bufferOverflow)) := by
  obtain ⟨t, ht⟩ := led_present s.config
  refine ⟨t, _, _, ht, rfl, rfl, fun hf => ?_, fun hf => ?_⟩
  · rw [execBuildBoot, bootRange_eq _ _ fun id h => bootIds_present _ h]
    simp only [lookup_present _ ht, (place_eq s a _).1 hf]
    rfl
  · rw [execBuildBoot, bootRange_eq _ _ fun id h => bootIds_present _ h]
    simp only [lookup_present _ ht, (place_eq s a _).2 hf]
    rfl

/-- Every command has its effect, answers a READ or raises an error; it never stops. -/
theorem exec_outcomes (i : Instr) (s : State) : Outcomes s i (exec i s) := by
  cases i with
  | nop => exact .inl ⟨_, _, .nop, rfl⟩
  | clear => exact .inl ⟨_, _, .clear, rfl⟩
  | push b =>
    by_cases h : s.obuf.length + 1 ≤ s.cap
    · refine .inl ⟨_, _, .push b h, ?_⟩
      simp [exec, execPush, appendBytes_eq, h, - State.cap_eq]
    · refine .inr (.inl ⟨.bufferOverflow, nofun, ?_⟩)
      simp [exec, execPush, appendBytes_eq, h, - State.cap_eq]
  | readb x =>
    cases h : s.obuf[x.toNat]? with
    | some b => exact .inl ⟨_, _, .readb x b h, by simp [exec, execReadb, h]⟩
    | none => exact .inr (.inl ⟨.indexRange, nofun, by simp [exec, execReadb, h]⟩)
  | read n =>
    cases h : s.register n with
    | some v => exact .inr (.inr ⟨n, v, rfl, h, by simp [exec, execRead, h]⟩)
    | none => exact .inr (.inl ⟨.illegalOp, nofun, by simp [exec, execRead, h]⟩)
  | setp k v =>
    by_cases h : 2 < k.toNat
    · exact .inr (.inl ⟨.illegalOp, nofun, by simp [exec, execSetp, (setParam_eq_none_iff s k v).2 h]⟩)
    · obtain rfl | rfl | rfl : k = 0#8 ∨ k = 1#8 ∨ k = 2#8 := by bv_omega
      · exact .inl ⟨_, _, .setp0 v, rfl⟩
      · exact .inl ⟨_, _, .setp1 v, rfl⟩
      · exact .inl ⟨_, _, .setp2 v, rfl⟩
  | crc8Init => exact .inl ⟨_, _, .crc8Init, rfl⟩
  | crc8Update b => exact .inl ⟨_, _, .crc8Update b, rfl⟩
  | crc16Init => exact .inl ⟨_, _, .crc16Init, rfl⟩
  | crc16Update b => exact .inl ⟨_, _, .crc16Update b, rfl⟩
  | appendCrc16 =>
    by_cases h : s.obuf.length + 2 ≤ s.cap
    · refine .inl ⟨_, _, .appendCrc16 h, ?_⟩
      simp [exec, execAppendCrc16, appendBytes_eq, h, - State.cap_eq]
    · refine .inr (.inl ⟨.bufferOverflow, nofun, ?_⟩)
      simp [exec, execAppendCrc16, appendBytes_eq, h, - State.cap_eq]
  | verifyCrc16 => exact .inl ⟨_, _, .verifyCrc16, rfl⟩
  | build id a c =>
    obtain ⟨t, ht, hf, h⟩ | ⟨e, he, h⟩ := templateBuild_cases s id.toNat a c fun _ => none
    · exact .inl ⟨_, _, .build id a c t ht hf, by simp [exec, execBuild, h, withOlen]⟩
    · exact .inr (.inl ⟨e, he, by simp [exec, execBuild, h, withOlen]⟩)
  | buildTwist a =>
    obtain ⟨t, ht, hf, h⟩ | ⟨e, he, h⟩ := templateBuild_cases s s.config.val.twistId a s.ctrJoy
      fun t => some (twistSource s.config.val t s.twistValues)
    · exact .inl ⟨_, _, .buildTwist a t _ ht hf rfl, by simp [exec, execBuildTwist, h, withOlen, drew, bumped]⟩
    · exact .inr (.inl ⟨e, he, by simp [exec, execBuildTwist, h, withOlen, drew, bumped]⟩)
  | buildGimbal a =>
    obtain ⟨t, ht, hf, h⟩ | ⟨e, he, h⟩ := templateBuild_cases s s.config.val.gimbalId a s.ctrGimbal
      fun t => some (gimbalSource t s.pitch s.yaw)
    · exact .inl ⟨_, _, .buildGimbal a t _ ht hf rfl, by simp [exec, execBuildGimbal, h, withOlen, drew, bumped]⟩
    · exact .inr (.inl ⟨e, he, by simp [exec, execBuildGimbal, h, withOlen, drew, bumped]⟩)
  | buildLed a red green blue =>
    obtain ⟨t, ht, hf, h⟩ | ⟨e, he, h⟩ := templateBuild_cases s s.config.val.ledId a s.ctrLed
      fun t => some (ledSource t ⟨red, green, blue⟩)
    · exact .inl ⟨_, _, .buildLed a red green blue t _ ht hf rfl, by simp [exec, execBuildLed, h, withOlen, bumped]⟩
    · exact .inr (.inl ⟨e, he, by simp [exec, execBuildLed, h, withOlen, bumped]⟩)
  | buildTouch a =>
    by_cases hf : s.fits a (touchBody s.config.val s.ctrJoy ++
      trailer (crc16 (touchBody s.config.val s.ctrJoy))).length
    · refine .inl ⟨_, _, .buildTouch a _ rfl hf, ?_⟩
      simp [exec, execBuildTouch, (place_eq s a _).1 hf, withOlen, bumped]
    · refine .inr (.inl ⟨.bufferOverflow, nofun, ?_⟩)
      simp [exec, execBuildTouch, (place_eq s a _).2 hf, withOlen, bumped]
  | buildBoot a =>
    obtain ⟨t, b, seq, ht, hb, hs, h1, h2⟩ := execBuildBoot_eq s a
    by_cases hf : s.fits a seq.length
    · exact .inl ⟨_, _, .buildBoot a t b seq ht hb hs hf, h1 hf⟩
    · exact .inr (.inl ⟨.bufferOverflow, nofun, h2 hf⟩)
  | split => exact .inl ⟨_, _, .split, rfl⟩

/-- Everything a command that gives a next state can have done. -/
theorem exec_cases {i : Instr} {s t : State} (h : exec i s = .next t) :
    (∃ u d, Effect s i u d ∧ t = u.succeed d) ∨ (∃ e, e ≠ .ok ∧ t = s.raiseError e) ∨
      ∃ n v, i = .read n ∧ s.register n = some v ∧ t = s.answerRead v := by
  have := exec_outcomes i s
  rw [h] at this
  simpa [Outcomes] using this

/-- Bytes that fit leave the buffer within its capacity (R165). -/
theorem placed_bound {s : State} {a : Bool} {bytes : List Byte} (h : s.fits a bytes.length) :
    (s.placed a bytes).obuf.length ≤ s.config.val.obufCap := by
  cases a <;> simpa [State.fits] using h

/-- Every effect keeps the buffer within its capacity (R28, R73). -/
theorem Effect.keeps_wf {s u : State} {i : Instr} {d : Word} (h : Effect s i u d) (wf : Memory.wf s.cap s.obuf = true) :
    Memory.wf u.cap u.obuf = true := by
  rw [Memory.wf_iff] at wf ⊢
  cases h with
  | build id a c t present fits =>
    exact placed_bound (by rwa [buildCmd_length _ _ _ (len_bounds _ present).1])
  | buildTwist a t b present fits built =>
    exact placed_bound (by rwa [built, buildCmd_length _ _ _ (len_bounds _ present).1])
  | buildGimbal a t b present fits built =>
    exact placed_bound (by rwa [built, buildCmd_length _ _ _ (len_bounds _ present).1])
  | buildLed a r g b t built' present fits built =>
    exact placed_bound (by rwa [built, buildCmd_length _ _ _ (len_bounds _ present).1])
  | buildTouch a body both fits => exact placed_bound fits
  | buildBoot a t b seq present built whole fits => exact placed_bound fits
  | _ => simp_all

end Sys2Proof.Machine
end

