-- ==== Sys2Proof/Laws/PerInstr.lean ====
section
/-! SUPPORT. A family of statements, one for each command: the word that spells it holds its opcode (R95) and reads zero
in the reserved fields `FLG[7:1]` and `RSV` (spec/30_encoding.md R91). -/

namespace Sys2Proof.Laws.EncodingFields

open Sys2Proof.Machine

/-- The opcode and the reserved fields of the word that spells a command. -/
def Statement (i : Instr) : Prop := opcField (encode i) = i.opcode ∧ flgField (encode i) = 0#7 ∧ rsvField (encode i) = 0#8

theorem nop : Statement .nop := by simp [Statement, encode]
theorem clear : Statement .clear := by simp [Statement, encode]
theorem push (b : Byte) : Statement (.push b) := by simp [Statement, encode]
theorem readb (i : Half) : Statement (.readb i) := by simp [Statement, encode]
theorem read (r : Byte) : Statement (.read r) := by simp [Statement, encode]
theorem setp (k : Byte) (v : Word) : Statement (.setp k v) := by simp [Statement, encode]
theorem crc8Init : Statement .crc8Init := by simp [Statement, encode]
theorem crc8Update (b : Byte) : Statement (.crc8Update b) := by simp [Statement, encode]
theorem crc16Init : Statement .crc16Init := by simp [Statement, encode]
theorem crc16Update (b : Byte) : Statement (.crc16Update b) := by simp [Statement, encode]
theorem appendCrc16 : Statement .appendCrc16 := by simp [Statement, encode]
theorem verifyCrc16 : Statement .verifyCrc16 := by simp [Statement, encode]
theorem build (id : Byte) (a : Bool) (c : Half) : Statement (.build id a c) := by simp [Statement, encode]
theorem buildTwist (a : Bool) : Statement (.buildTwist a) := by simp [Statement, encode]
theorem buildGimbal (a : Bool) : Statement (.buildGimbal a) := by simp [Statement, encode]
theorem buildLed (a : Bool) (red green blue : Byte) : Statement (.buildLed a red green blue) := by
  simp [Statement, encode]
theorem buildTouch (a : Bool) : Statement (.buildTouch a) := by simp [Statement, encode]
theorem buildBoot (a : Bool) : Statement (.buildBoot a) := by simp [Statement, encode]
theorem split : Statement .split := by simp [Statement, encode]

end Sys2Proof.Laws.EncodingFields
end

