-- ==== Sys2Proof/Laws/Quantise.lean ====
section
/-! SUPPORT. The quantisers' integer arithmetic is the exact arithmetic of spec/00_scope.md R11 over the rationals. -/

namespace Sys2Proof.Machine

/-- `round` of R11 over the rationals: the nearest integer, halves away from zero. -/
def roundRat (q : ℚ) : ℤ := if 0 ≤ q then ⌊q + 1 / 2⌋ else -⌊-q + 1 / 2⌋

/-- `round(n / d)` in integers is `round` of the quotient (R11). -/
theorem roundDiv_eq_roundRat (n : ℤ) {d : ℕ} (hd : 0 < d) : roundDiv n d = roundRat ((n : ℚ) / d) := by
  have hd' : (0 : ℚ) < d := by exact_mod_cast hd
  have half (m : ℤ) : ⌊(m : ℚ) / d + 1 / 2⌋ = (2 * m + d) / (2 * d) := by
    have : (m : ℚ) / d + 1 / 2 = ((2 * m + d : ℤ) : ℚ) / ((2 * d : ℕ) : ℚ) := by
      push_cast
      field_simp
    rw [this, Rat.floor_intCast_div_natCast]
    push_cast
    rfl
  have sign : (0 : ℚ) ≤ (n : ℚ) / d ↔ 0 ≤ n := by
    rw [le_div_iff₀ hd', zero_mul]
    exact_mod_cast Iff.rfl
  rw [roundDiv, roundRat]
  by_cases h : 0 ≤ n
  · rw [if_pos h, if_pos (sign.2 h), half]
  · rw [if_neg h, if_neg (mt sign.1 h), ← neg_div, ← Int.cast_neg, half]
    congr 2
    ring

/-- `clamp` in terms of `max` and `min`. -/
theorem clamp_eq (x lo hi : ℤ) (h : lo ≤ hi) : clamp x lo hi = max lo (min hi x) := by
  rw [clamp]
  split
  · omega
  · split <;> omega

/-- The magnitude of a finite pattern in units of `2^-149` is the value R170 gives. -/
theorem magnitude_eq (p : Word) :
    (magnitude p : ℚ) / unitsPerOne =
      if expField p = 0 then (fracField p : ℚ) / 2 ^ 149
      else ((2 ^ 23 + fracField p : ℕ) : ℚ) * 2 ^ ((expField p : ℤ) - 150) := by
  rw [magnitude, unitsPerOne]
  split
  · push_cast
    rfl
  · rename_i h
    have : ((2 : ℚ) ^ ((expField p : ℤ) - 150)) = 2 ^ (expField p - 1) / 2 ^ 149 := by
      rw [eq_div_iff (by positivity), ← zpow_natCast, ← zpow_natCast, ← zpow_add₀ two_ne_zero]
      congr 1
      omega
    rw [this]
    push_cast
    ring

/-- A pattern whose exponent field is not 0xFF is finite, and its units stand for the value R170 gives. -/
theorem binary32_finite (p : Word) (h : expField p ≠ 255) :
    ∃ u : ℤ, binary32 p = .finite u ∧ (u : ℚ) / unitsPerOne = (if p.getLsbD 31 then -1 else 1) *
      (if expField p = 0 then (fracField p : ℚ) / 2 ^ 149
        else ((2 ^ 23 + fracField p : ℕ) : ℚ) * 2 ^ ((expField p : ℤ) - 150)) := by
  rw [binary32, if_neg h]
  refine ⟨_, rfl, ?_⟩
  rw [← magnitude_eq]
  split <;> (push_cast; ring)

end Sys2Proof.Machine
end

