-- ==== Sys2Proof/Laws/Slices.lean ====
section
/-! SUPPORT. The bits of the twist layout's bytes (spec/41_command_builder.md R171): what a slice and its mask put at each
bit of a byte. -/

namespace Sys2Proof.Machine

/-- The bitwise or of bytes has a bit that one of them has. -/
theorem orAll_bit (bytes : List Byte) (j : Nat) : (orAll bytes).getLsbD j = bytes.any (·.getLsbD j) := by
  induction bytes with
  | nil => simp [orAll]
  | cons b rest ih => simp only [orAll, List.foldr_cons, BitVec.getLsbD_or, List.any_cons] at ih ⊢; rw [ih]

/-- The `w` low bits of a byte. -/
theorem lowBits_bit {w j : Nat} (hw : w < 9) (hj : j < 8) : ((1#8 <<< w) - 1#8).getLsbD j = decide (j < w) := by
  have : ∀ w < 9, ∀ j < 8, ((1#8 <<< w) - 1#8).getLsbD j = decide (j < w) := by decide +kernel
  exact this w hw j hj

/-- A slice's mask covers the bits `d` to `d + w - 1`. -/
theorem mask_bit (s : Slice) (h : s.dst + s.width ≤ 8) (j : Nat) :
    s.mask.getLsbD j = (decide (s.dst ≤ j) && decide (j < s.dst + s.width)) := by
  by_cases hj : j < 8
  · simp only [Slice.mask, BitVec.getLsbD_shiftLeft, lowBits_bit (w := s.width) (by omega) (show j - s.dst < 8 by omega)]
    by_cases a : s.dst ≤ j <;> by_cases b : j < s.dst + s.width <;> simp [hj, a, b] <;> omega
  · rw [BitVec.getLsbD_of_ge _ _ (by omega)]
    simp
    omega

/-- A slice puts bit `s + k` of its field at bit `d + k` and nothing elsewhere. -/
theorem sliceBits_bit (v : TwistValues) (s : Slice) (h : s.dst + s.width ≤ 8) {j : Nat} (hj : j < 8) :
    (sliceBits v s).getLsbD j =
      (decide (s.dst ≤ j) && decide (j < s.dst + s.width) && (v.get s.field).getLsbD (s.src + (j - s.dst))) := by
  simp only [sliceBits, BitVec.getLsbD_shiftLeft, BitVec.getLsbD_and, BitVec.getLsbD_setWidth, BitVec.getLsbD_ushiftRight]
  rw [lowBits_bit (by omega) (by omega)]
  by_cases a : s.dst ≤ j <;> by_cases b : j < s.dst + s.width <;> simp [hj, a, b]
  · simp [show ¬j < s.dst by omega, show j - s.dst < 8 by omega, show j - s.dst < s.width by omega]
  all_goals intros; omega

/-- A map held as a list of pairs with distinct keys finds each of its entries. -/
theorem lookup_of_mem {α : Type} {entries : List (Nat × α)} {i : Nat} {x : α} (distinct : (entries.map (·.1)).Nodup)
    (h : (i, x) ∈ entries) : entries.lookup i = some x := by
  induction entries with
  | nil => simp at h
  | cons e rest ih =>
    obtain ⟨k, y⟩ := e
    simp only [List.map_cons, List.nodup_cons] at distinct
    simp only [List.mem_cons, Prod.mk.injEq] at h
    rw [List.lookup_cons]
    obtain ⟨rfl, rfl⟩ | h := h
    · simp
    · have : (i == k) = false := by
        rw [beq_eq_false_iff_ne]
        rintro rfl
        exact distinct.1 (List.mem_map.2 ⟨_, h, rfl⟩)
      rw [this]
      exact ih distinct.2 h

end Sys2Proof.Machine
end

