-- ==== Sys2Proof/Laws/Split.lean ====
section
/-! SUPPORT. The splitter's chunks one after another (spec/42_frame_splitter.md R200). -/

namespace Sys2Proof.Machine

/-- `ceil(N / 8)`, in numbers. -/
theorem chunkCount_eq (n : Nat) : chunkCount n = (n + 7) / 8 := rfl

@[simp] theorem splitBytes_nil : splitBytes [] = [] := rfl

/-- There are `ceil(N / 8)` chunks. -/
@[simp] theorem splitBytes_length (s : List Byte) : (splitBytes s).length = (s.length + 7) / 8 := by
  simp [splitBytes, chunkCount_eq]

/-- The first chunk is the first eight bytes, and the others are the chunks of what is behind them. -/
theorem splitBytes_cons {s : List Byte} (h : s ≠ []) : splitBytes s = s.take 8 :: splitBytes (s.drop 8) := by
  have hl : 0 < s.length := List.length_pos_iff.2 h
  have hc : chunkCount s.length = chunkCount (s.drop 8).length + 1 := by
    simp only [chunkCount_eq, List.length_drop]
    omega
  rw [splitBytes, hc, List.range_succ_eq_map, List.map_cons, List.map_map, splitBytes]
  refine congrArg₂ _ (by simp [frameMax]) (List.map_congr_left fun k _ => ?_)
  simp [frameMax, List.drop_drop, Nat.mul_add, Nat.add_comm]

/-- A property of the chunks, by what they are cut from: nothing, or eight bytes at most and the rest. -/
theorem split_induction {motive : List Byte → Prop} (nil : motive [])
    (cut : ∀ s, s ≠ [] → motive (s.drop 8) → motive s) (s : List Byte) : motive s := by
  induction hn : s.length using Nat.strong_induction_on generalizing s with
  | _ n ih =>
    by_cases h : s = []
    · exact h ▸ nil
    · have hl : 0 < s.length := List.length_pos_iff.2 h
      exact cut s h (ih _ (by simp; omega) _ rfl)

/-- Every chunk is a frame's worth: one to eight bytes (R203). -/
theorem chunk_bounds {s chunk : List Byte} (h : chunk ∈ splitBytes s) : 1 ≤ chunk.length ∧ chunk.length ≤ 8 := by
  induction s using split_induction with
  | nil => simp at h
  | cut s hs ih =>
    rw [splitBytes_cons hs, List.mem_cons] at h
    obtain rfl | h := h
    · have hl : 0 < s.length := List.length_pos_iff.2 hs
      simp
      omega
    · exact ih h

end Sys2Proof.Machine
end

