-- ==== Sys2Proof/Machine/Assembler.lean ====
section
/-! DEFINITION. The written form of the commands and the host's sequences over them (spec/30_encoding.md R98, R99 and
R103, spec/70_reset_and_hazards.md R290 and R302). Nothing here is state or a step of the block: these are the lists of
commands an assembler and the Control Session give it. -/

namespace Sys2Proof

/-! ### One line, one command (R98) -/

/-- An operand: a number, written in decimal or hexadecimal, or a register name. -/
inductive Operand where
  | num (n : Nat)
  | reg (name : String)
  deriving DecidableEq, Repr

/-- The register names a READ operand may use (R98, spec/10_state.md R38). -/
def registerNames : List String :=
  ["STATUS", "OLEN", "CTR_JOY", "CTR_LED", "CTR_GIMBAL", "ACC8", "ACC16", "NFRAMES", "PARAM0", "PARAM1", "PARAM2",
    "INFO"]

/-- The number of a register name. -/
def registerNumber (name : String) : Option Nat :=
  if name ∈ registerNames then some (registerNames.idxOf name) else none

/-- A number that fits an operand of `width` bits. -/
def fitted (width n : Nat) : Option (BitVec width) := if n < 2 ^ width then some (BitVec.ofNat width n) else none

/-- Commands without an operand, and the builds that have none but the append flag. -/
def plainCommand : String → Option Instr
  | "nop" => some .nop
  | "clear" => some .clear
  | "crc8_init" => some .crc8Init
  | "crc16_init" => some .crc16Init
  | "append_crc16" => some .appendCrc16
  | "verify_crc16" => some .verifyCrc16
  | "split" => some .split
  | "build_twist" => some (.buildTwist false)
  | "build_twist.a" => some (.buildTwist true)
  | "build_gimbal" => some (.buildGimbal false)
  | "build_gimbal.a" => some (.buildGimbal true)
  | "build_touch" => some (.buildTouch false)
  | "build_touch.a" => some (.buildTouch true)
  | "build_boot" => some (.buildBoot false)
  | "build_boot.a" => some (.buildBoot true)
  | _ => none

/-- Commands with one number. -/
def numberCommand (mnemonic : String) (n : Nat) : Option Instr :=
  match mnemonic with
  | "push" => (fitted 8 n).map .push
  | "crc8_update" => (fitted 8 n).map .crc8Update
  | "crc16_update" => (fitted 8 n).map .crc16Update
  | "readb" => (fitted 16 n).map .readb
  | "read" => (fitted 8 n).map .read
  | _ => none

/-- Commands with two numbers: `setp k, v` and `build[.a] id, c`. -/
def pairCommand (mnemonic : String) (m n : Nat) : Option Instr :=
  match mnemonic with
  | "setp" => (fitted 8 m).bind fun k => (fitted 32 n).map fun v => .setp k v
  | "build" => (fitted 8 m).bind fun id => (fitted 16 n).map fun c => .build id false c
  | "build.a" => (fitted 8 m).bind fun id => (fitted 16 n).map fun c => .build id true c
  | _ => none

/-- `build_led[.a] red, green, blue`. -/
def colourCommand (mnemonic : String) (r g b : Nat) : Option Instr :=
  match mnemonic with
  | "build_led" => (fitted 8 r).bind fun x => (fitted 8 g).bind fun y => (fitted 8 b).map (.buildLed false x y ·)
  | "build_led.a" => (fitted 8 r).bind fun x => (fitted 8 g).bind fun y => (fitted 8 b).map (.buildLed true x y ·)
  | _ => none

/-- A line's command: its mnemonic and operands (R98); only a legal command is written. -/
def assembleLine (mnemonic : String) (operands : List Operand) : Option Instr :=
  (match operands with
    | [] => plainCommand mnemonic
    | [.num n] => numberCommand mnemonic n
    | [.reg name] => if mnemonic = "read" then (registerNumber name).bind (numberCommand "read") else none
    | [.num m, .num n] => pairCommand mnemonic m n
    | [.num r, .num g, .num b] => colourCommand mnemonic r g b
    | _ => none).filter Instr.wf

/-! ### Decimal literals (R99) -/

/-- A decimal literal: its sign and the value `digits / 10 ^ scale`. -/
structure Decimal where
  negative : Bool
  digits : Nat
  scale : Nat
  deriving DecidableEq, Repr

/-- `n / d` to the nearest number, ties to even. -/
def divTiesToEven (n d : Nat) : Nat :=
  let q := n / d
  let r := n % d
  if 2 * r < d then q else if 2 * r = d then q + q % 2 else q + 1

/-- `bits32(x)` (R99): the binary32 pattern nearest a decimal literal, ties to even, an infinity above the range. The
magnitude is counted in units of `2^-149`; `shift` is how far its leading bits lie above the 24 of a significand. -/
def bits32 (x : Decimal) : BitVec 32 :=
  let shift := (x.digits * 2 ^ 149 / 10 ^ x.scale).log2 - 23
  let pattern := shift * 2 ^ 23 + divTiesToEven (x.digits * 2 ^ 149) (10 ^ x.scale * 2 ^ shift)
  BitVec.ofBool x.negative ++ BitVec.ofNat 31 (min pattern 0x7F800000)

/-! ### Pseudo-instructions (R99) -/

/-- The pseudo-instructions. -/
inductive Pseudo where
  | setpf (k : Byte) (x : Decimal)
  | twist (vx vy vz : Decimal)
  | gimbal (ry rz : Decimal)
  | led (r g b : Byte)
  | touch
  | init
  | move (vx vy vz : Decimal)
  | stop
  deriving DecidableEq, Repr

/-- 0.0. -/
def Decimal.zero : Decimal := ⟨false, 0, 0⟩

/-- `setpf k, x`. -/
def setFloat (k : Byte) (x : Decimal) : Instr := .setp k (bits32 x)

/-- `twist vx, vy, vz`. -/
def twistCommands (vx vy vz : Decimal) : List Instr :=
  [setFloat 0#8 vx, setFloat 1#8 vy, setFloat 2#8 vz, .buildTwist false, .split]

/-- `gimbal ry, rz`. -/
def gimbalCommands (ry rz : Decimal) : List Instr := [setFloat 0#8 ry, setFloat 1#8 rz, .buildGimbal false, .split]

/-- `move vx, vy, vz`: the twist and, from the same `vz`, the gimbal with pitch 0. `yawOfVz` is the host parameter
`YAW_OF_VZ`, which the spec does not give. -/
def moveCommands (yawOfVz : Decimal → Decimal) (vx vy vz : Decimal) : List Instr :=
  twistCommands vx vy vz ++ gimbalCommands .zero (yawOfVz vz)

/-- The expansion of a pseudo-instruction (R99). -/
def Pseudo.expand (yawOfVz : Decimal → Decimal) : Pseudo → List Instr
  | .setpf k x => [setFloat k x]
  | .twist vx vy vz => twistCommands vx vy vz
  | .gimbal ry rz => gimbalCommands ry rz
  | .led r g b => [.buildLed false r g b, .split]
  | .touch => [.buildTouch false, .split]
  | .init => [.buildBoot false, .split]
  | .move vx vy vz => moveCommands yawOfVz vx vy vz
  | .stop => moveCommands yawOfVz .zero .zero .zero

/-- The named colours of R103, as the operands of `led`. -/
inductive NamedColour where
  | red | green | blue | white | off
  deriving DecidableEq, Repr

/-- The triple of a named colour (R103). -/
def NamedColour.triple : NamedColour → Byte × Byte × Byte
  | .red => (255#8, 0#8, 0#8)
  | .green => (0#8, 255#8, 0#8)
  | .blue => (0#8, 0#8, 255#8)
  | .white => (255#8, 255#8, 255#8)
  | .off => (0#8, 0#8, 0#8)

/-! ### The Control Session's sequences (spec/70_reset_and_hazards.md R290, R302) -/

/-- What the host does in one call. -/
inductive SessionCall where
  | move (vx vy vz : Decimal)
  | stop
  | controlLed (r g b : Byte)
  | sendTouch
  | receiveMessages
  | shutdown
  deriving DecidableEq, Repr

/-- The commands of a call and the host's flag `ready` after it (R302): a movement runs `init` once first, the LED and
touch calls need none (R291). `receive_messages` and `shutdown` give the block no command. -/
def SessionCall.run (yawOfVz : Decimal → Decimal) (ready : Bool) : SessionCall → List Instr × Bool
  | .move vx vy vz =>
    ((if ready then [] else Pseudo.expand yawOfVz .init) ++ Pseudo.expand yawOfVz (.move vx vy vz), true)
  | .stop => ((if ready then [] else Pseudo.expand yawOfVz .init) ++ Pseudo.expand yawOfVz .stop, true)
  | .controlLed r g b => (Pseudo.expand yawOfVz (.led r g b), ready)
  | .sendTouch => (Pseudo.expand yawOfVz .touch, ready)
  | .receiveMessages | .shutdown => ([], ready)

/-- The words the host sends for a list of commands. -/
def hostWords (commands : List Instr) : List CommandWord := commands.map encode

end Sys2Proof
end

