-- ==== Sys2Proof/Tests/Slice0.lean ====
section
/-! SUPPORT. Tests. Every expected value is the spec's own: the tables of spec/40_checksum.md R130 and R131, the vectors of
spec/95_test_vectors.md (named B10, H3, ... as there), the examples of spec/30_encoding.md R98. Each witness theorem at the
end shows a concrete input that meets the hypotheses of a statement of Certificates/Slice0/Obligations.lean. -/

namespace Sys2Proof.Tests

set_option Elab.async false

open Sys2Proof.Machine

/-- The state after the host's word, from `s`. -/
def after (s : State) (w : Nat) : Option State :=
  match step (s.withFetchWord 64 w) with
  | .next t => some t
  | .fault _ => none
  | .refused _ => none

/-- The one response to the host's word, from `s`. -/
def answer (s : State) (w : Nat) : Option (BitVec 4 × Word) :=
  (after s w).bind fun t => t.responses.getLast?.map fun r => (r.code, r.data)

/-- What a build leaves: the buffer and the accumulators. -/
def built (s : State) (w : Nat) : Option (List Byte × Byte × Half) :=
  (after s w).map fun t => (t.obuf, t.acc8, t.acc16)

/-- A reset block whose buffer holds `n` zero bytes. -/
def holding (n : Nat) : State := { State.reset with obuf := List.replicate n 0#8 }

/-- A reset block whose buffer holds `bytes`. -/
def withBytes (bytes : List Byte) : State := { State.reset with obuf := bytes }

/-! ### Well-formedness and the field checks of R94 -/

theorem test_wf_read_boundary : (Instr.read 0x0B#8).wf = true ∧ (Instr.read 0x0C#8).wf = false := by decide
theorem test_wf_setp_boundary : (Instr.setp 2#8 0#32).wf = true ∧ (Instr.setp 3#8 0#32).wf = false := by decide
/-- R94 (a), H12 and H13. -/
theorem test_reject_unassigned :
    decode 0x0600000000000000#64 = .error .unassignedOpcode ∧ decode 0xFF00000000000000#64 = .error .unassignedOpcode := by
  decide
/-- R94 (b), H6 and H3. -/
theorem test_reject_reserved :
    decode 0x2000020000000000#64 = .error .reservedNonzero ∧ decode 0x0000000100000000#64 = .error .reservedNonzero := by
  decide
/-- R94 (c), H2, H7, H9 and H10. -/
theorem test_reject_unused :
    decode 0x0000010000000000#64 = .error .unusedNonzero ∧ decode 0x2101000000000000#64 = .error .unusedNonzero ∧
      decode 0x0100000000000001#64 = .error .unusedNonzero ∧ decode 0x0300000000010000#64 = .error .unusedNonzero := by
  decide
/-- R94 (d) and (e), H4 and H5. -/
theorem test_reject_operand :
    decode 0x040C000000000000#64 = .error .operandRange ∧ decode 0x0503000000000000#64 = .error .operandRange := by decide

/-! ### Every command's word, written out from R91, R92 and R95 -/

theorem test_decode_nop :
    decodeTableWord 64 0x0000000000000000 = some .nop ∧ encode .nop = 0x0000000000000000#64 := by decide
theorem test_decode_clear :
    decodeTableWord 64 0x0100000000000000 = some .clear ∧ encode .clear = 0x0100000000000000#64 := by decide
theorem test_decode_push :
    decodeTableWord 64 0x0200000000000055 = some (.push 0x55#8) ∧ encode (.push 0x55#8) = 0x0200000000000055#64 := by decide
theorem test_decode_readb :
    decodeTableWord 64 0x030000000000000D = some (.readb 13#16) ∧ encode (.readb 13#16) = 0x030000000000000D#64 := by decide
theorem test_decode_read :
    decodeTableWord 64 0x0407000000000000 = some (.read 7#8) ∧ encode (.read 7#8) = 0x0407000000000000#64 := by decide
theorem test_decode_setp :
    decodeTableWord 64 0x05010000BF800000 = some (.setp 1#8 0xBF800000#32) ∧ encode (.setp 1#8 0xBF800000#32) = 0x05010000BF800000#64 := by decide
theorem test_decode_crc8Init :
    decodeTableWord 64 0x1000000000000000 = some .crc8Init ∧ encode .crc8Init = 0x1000000000000000#64 := by decide
theorem test_decode_crc8Update :
    decodeTableWord 64 0x1100000000000055 = some (.crc8Update 0x55#8) ∧ encode (.crc8Update 0x55#8) = 0x1100000000000055#64 := by decide
theorem test_decode_crc16Init :
    decodeTableWord 64 0x1200000000000000 = some .crc16Init ∧ encode .crc16Init = 0x1200000000000000#64 := by decide
theorem test_decode_crc16Update :
    decodeTableWord 64 0x1300000000000055 = some (.crc16Update 0x55#8) ∧ encode (.crc16Update 0x55#8) = 0x1300000000000055#64 := by decide
theorem test_decode_appendCrc16 :
    decodeTableWord 64 0x1400000000000000 = some .appendCrc16 ∧ encode .appendCrc16 = 0x1400000000000000#64 := by decide
theorem test_decode_verifyCrc16 :
    decodeTableWord 64 0x1500000000000000 = some .verifyCrc16 ∧ encode .verifyCrc16 = 0x1500000000000000#64 := by decide
theorem test_decode_build :
    decodeTableWord 64 0x2005010000000102 = some (.build 5#8 true 0x0102#16) ∧ encode (.build 5#8 true 0x0102#16) = 0x2005010000000102#64 := by decide
theorem test_decode_buildTwist :
    decodeTableWord 64 0x2100010000000000 = some (.buildTwist true) ∧ encode (.buildTwist true) = 0x2100010000000000#64 := by decide
theorem test_decode_buildGimbal :
    decodeTableWord 64 0x2200000000000000 = some (.buildGimbal false) ∧ encode (.buildGimbal false) = 0x2200000000000000#64 := by decide
theorem test_decode_buildLed :
    decodeTableWord 64 0x2300010000332211 = some (.buildLed true 0x11#8 0x22#8 0x33#8) ∧ encode (.buildLed true 0x11#8 0x22#8 0x33#8) = 0x2300010000332211#64 := by decide
theorem test_decode_buildTouch :
    decodeTableWord 64 0x2400000000000000 = some (.buildTouch false) ∧ encode (.buildTouch false) = 0x2400000000000000#64 := by decide
theorem test_decode_buildBoot :
    decodeTableWord 64 0x2500010000000000 = some (.buildBoot true) ∧ encode (.buildBoot true) = 0x2500010000000000#64 := by decide
theorem test_decode_split :
    decodeTableWord 64 0x3000000000000000 = some .split ∧ encode .split = 0x3000000000000000#64 := by decide

/-- The table gives 64 bits; a word with fewer reads the bits above as zero. -/
theorem test_decode_short_row : decodeTableWord 8 0xFF = decodeTableWord 64 0x00000000000000FF := by decide

/-! ### The checksum tables (R130, R131) -/

/-- The entries of `CRC8_TABLE` as printed, rows 0x00 to 0x30. -/
def crc8Rows0 : List Byte :=
  [0x00, 0x5E, 0xBC, 0xE2, 0x61, 0x3F, 0xDD, 0x83, 0xC2, 0x9C, 0x7E, 0x20, 0xA3, 0xFD, 0x1F, 0x41] ++
    [0x9D, 0xC3, 0x21, 0x7F, 0xFC, 0xA2, 0x40, 0x1E, 0x5F, 0x01, 0xE3, 0xBD, 0x3E, 0x60, 0x82, 0xDC] ++
    [0x23, 0x7D, 0x9F, 0xC1, 0x42, 0x1C, 0xFE, 0xA0, 0xE1, 0xBF, 0x5D, 0x03, 0x80, 0xDE, 0x3C, 0x62] ++
    [0xBE, 0xE0, 0x02, 0x5C, 0xDF, 0x81, 0x63, 0x3D, 0x7C, 0x22, 0xC0, 0x9E, 0x1D, 0x43, 0xA1, 0xFF]

/-- The entries of `CRC8_TABLE` as printed, rows 0x40 to 0x70. -/
def crc8Rows1 : List Byte :=
  [0x46, 0x18, 0xFA, 0xA4, 0x27, 0x79, 0x9B, 0xC5, 0x84, 0xDA, 0x38, 0x66, 0xE5, 0xBB, 0x59, 0x07] ++
    [0xDB, 0x85, 0x67, 0x39, 0xBA, 0xE4, 0x06, 0x58, 0x19, 0x47, 0xA5, 0xFB, 0x78, 0x26, 0xC4, 0x9A] ++
    [0x65, 0x3B, 0xD9, 0x87, 0x04, 0x5A, 0xB8, 0xE6, 0xA7, 0xF9, 0x1B, 0x45, 0xC6, 0x98, 0x7A, 0x24] ++
    [0xF8, 0xA6, 0x44, 0x1A, 0x99, 0xC7, 0x25, 0x7B, 0x3A, 0x64, 0x86, 0xD8, 0x5B, 0x05, 0xE7, 0xB9]

/-- The entries of `CRC8_TABLE` as printed, rows 0x80 to 0xB0. -/
def crc8Rows2 : List Byte :=
  [0x8C, 0xD2, 0x30, 0x6E, 0xED, 0xB3, 0x51, 0x0F, 0x4E, 0x10, 0xF2, 0xAC, 0x2F, 0x71, 0x93, 0xCD] ++
    [0x11, 0x4F, 0xAD, 0xF3, 0x70, 0x2E, 0xCC, 0x92, 0xD3, 0x8D, 0x6F, 0x31, 0xB2, 0xEC, 0x0E, 0x50] ++
    [0xAF, 0xF1, 0x13, 0x4D, 0xCE, 0x90, 0x72, 0x2C, 0x6D, 0x33, 0xD1, 0x8F, 0x0C, 0x52, 0xB0, 0xEE] ++
    [0x32, 0x6C, 0x8E, 0xD0, 0x53, 0x0D, 0xEF, 0xB1, 0xF0, 0xAE, 0x4C, 0x12, 0x91, 0xCF, 0x2D, 0x73]

/-- The entries of `CRC8_TABLE` as printed, rows 0xC0 to 0xF0. -/
def crc8Rows3 : List Byte :=
  [0xCA, 0x94, 0x76, 0x28, 0xAB, 0xF5, 0x17, 0x49, 0x08, 0x56, 0xB4, 0xEA, 0x69, 0x37, 0xD5, 0x8B] ++
    [0x57, 0x09, 0xEB, 0xB5, 0x36, 0x68, 0x8A, 0xD4, 0x95, 0xCB, 0x29, 0x77, 0xF4, 0xAA, 0x48, 0x16] ++
    [0xE9, 0xB7, 0x55, 0x0B, 0x88, 0xD6, 0x34, 0x6A, 0x2B, 0x75, 0x97, 0xC9, 0x4A, 0x14, 0xF6, 0xA8] ++
    [0x74, 0x2A, 0xC8, 0x96, 0x15, 0x4B, 0xA9, 0xF7, 0xB6, 0xE8, 0x0A, 0x54, 0xD7, 0x89, 0x6B, 0x35]

theorem test_crc8_table :
    (List.range 256).map (fun i => crc8Table (BitVec.ofNat 8 i)) = crc8Rows0 ++ crc8Rows1 ++ crc8Rows2 ++ crc8Rows3 := by
  decide +kernel

/-- The entries of `CRC16_TABLE` as printed, rows 0x00 to 0x18. -/
def crc16Rows0 : List Half :=
  [0x0000, 0x1189, 0x2312, 0x329B, 0x4624, 0x57AD, 0x6536, 0x74BF] ++
    [0x8C48, 0x9DC1, 0xAF5A, 0xBED3, 0xCA6C, 0xDBE5, 0xE97E, 0xF8F7] ++
    [0x1081, 0x0108, 0x3393, 0x221A, 0x56A5, 0x472C, 0x75B7, 0x643E] ++
    [0x9CC9, 0x8D40, 0xBFDB, 0xAE52, 0xDAED, 0xCB64, 0xF9FF, 0xE876]

/-- The entries of `CRC16_TABLE` as printed, rows 0x20 to 0x38. -/
def crc16Rows1 : List Half :=
  [0x2102, 0x308B, 0x0210, 0x1399, 0x6726, 0x76AF, 0x4434, 0x55BD] ++
    [0xAD4A, 0xBCC3, 0x8E58, 0x9FD1, 0xEB6E, 0xFAE7, 0xC87C, 0xD9F5] ++
    [0x3183, 0x200A, 0x1291, 0x0318, 0x77A7, 0x662E, 0x54B5, 0x453C] ++
    [0xBDCB, 0xAC42, 0x9ED9, 0x8F50, 0xFBEF, 0xEA66, 0xD8FD, 0xC974]

/-- The entries of `CRC16_TABLE` as printed, rows 0x40 to 0x58. -/
def crc16Rows2 : List Half :=
  [0x4204, 0x538D, 0x6116, 0x709F, 0x0420, 0x15A9, 0x2732, 0x36BB] ++
    [0xCE4C, 0xDFC5, 0xED5E, 0xFCD7, 0x8868, 0x99E1, 0xAB7A, 0xBAF3] ++
    [0x5285, 0x430C, 0x7197, 0x601E, 0x14A1, 0x0528, 0x37B3, 0x263A] ++
    [0xDECD, 0xCF44, 0xFDDF, 0xEC56, 0x98E9, 0x8960, 0xBBFB, 0xAA72]

/-- The entries of `CRC16_TABLE` as printed, rows 0x60 to 0x78. -/
def crc16Rows3 : List Half :=
  [0x6306, 0x728F, 0x4014, 0x519D, 0x2522, 0x34AB, 0x0630, 0x17B9] ++
    [0xEF4E, 0xFEC7, 0xCC5C, 0xDDD5, 0xA96A, 0xB8E3, 0x8A78, 0x9BF1] ++
    [0x7387, 0x620E, 0x5095, 0x411C, 0x35A3, 0x242A, 0x16B1, 0x0738] ++
    [0xFFCF, 0xEE46, 0xDCDD, 0xCD54, 0xB9EB, 0xA862, 0x9AF9, 0x8B70]

/-- The entries of `CRC16_TABLE` as printed, rows 0x80 to 0x98. -/
def crc16Rows4 : List Half :=
  [0x8408, 0x9581, 0xA71A, 0xB693, 0xC22C, 0xD3A5, 0xE13E, 0xF0B7] ++
    [0x0840, 0x19C9, 0x2B52, 0x3ADB, 0x4E64, 0x5FED, 0x6D76, 0x7CFF] ++
    [0x9489, 0x8500, 0xB79B, 0xA612, 0xD2AD, 0xC324, 0xF1BF, 0xE036] ++
    [0x18C1, 0x0948, 0x3BD3, 0x2A5A, 0x5EE5, 0x4F6C, 0x7DF7, 0x6C7E]

/-- The entries of `CRC16_TABLE` as printed, rows 0xA0 to 0xB8. -/
def crc16Rows5 : List Half :=
  [0xA50A, 0xB483, 0x8618, 0x9791, 0xE32E, 0xF2A7, 0xC03C, 0xD1B5] ++
    [0x2942, 0x38CB, 0x0A50, 0x1BD9, 0x6F66, 0x7EEF, 0x4C74, 0x5DFD] ++
    [0xB58B, 0xA402, 0x9699, 0x8710, 0xF3AF, 0xE226, 0xD0BD, 0xC134] ++
    [0x39C3, 0x284A, 0x1AD1, 0x0B58, 0x7FE7, 0x6E6E, 0x5CF5, 0x4D7C]

/-- The entries of `CRC16_TABLE` as printed, rows 0xC0 to 0xD8. -/
def crc16Rows6 : List Half :=
  [0xC60C, 0xD785, 0xE51E, 0xF497, 0x8028, 0x91A1, 0xA33A, 0xB2B3] ++
    [0x4A44, 0x5BCD, 0x6956, 0x78DF, 0x0C60, 0x1DE9, 0x2F72, 0x3EFB] ++
    [0xD68D, 0xC704, 0xF59F, 0xE416, 0x90A9, 0x8120, 0xB3BB, 0xA232] ++
    [0x5AC5, 0x4B4C, 0x79D7, 0x685E, 0x1CE1, 0x0D68, 0x3FF3, 0x2E7A]

/-- The entries of `CRC16_TABLE` as printed, rows 0xE0 to 0xF8. -/
def crc16Rows7 : List Half :=
  [0xE70E, 0xF687, 0xC41C, 0xD595, 0xA12A, 0xB0A3, 0x8238, 0x93B1] ++
    [0x6B46, 0x7ACF, 0x4854, 0x59DD, 0x2D62, 0x3CEB, 0x0E70, 0x1FF9] ++
    [0xF78F, 0xE606, 0xD49D, 0xC514, 0xB1AB, 0xA022, 0x92B9, 0x8330] ++
    [0x7BC7, 0x6A4E, 0x58D5, 0x495C, 0x3DE3, 0x2C6A, 0x1EF1, 0x0F78]

theorem test_crc16_table :
    (List.range 256).map (fun i => crc16Table (BitVec.ofNat 8 i)) =
      crc16Rows0 ++ crc16Rows1 ++ crc16Rows2 ++ crc16Rows3 ++
        (crc16Rows4 ++ crc16Rows5 ++ crc16Rows6 ++ crc16Rows7) := by decide +kernel

/-- Section 3.1: ASCII 123456789. -/
def digits : List Byte := [0x31, 0x32, 0x33, 0x34, 0x35, 0x36, 0x37, 0x38, 0x39]
theorem test_crc_digits : crc8 digits = 0xFB#8 ∧ crc16 digits = 0x7109#16 := by decide +kernel

/-- V1: the 13 bytes of the source's CRC16 vector. -/
def v1 : List Byte := [0x55, 0x1B, 0x04, 0xA2, 0x09, 0x04, 0x00, 0x00, 0x40, 0x04, 0x4C, 0x00, 0x00]
theorem test_v1_crc16 : crc16 v1 = 0x2065#16 ∧ crc16 (v1 ++ [0x65, 0x20]) = 0#16 := by decide +kernel
theorem test_v2_empty : crc16 [] = 13970#16 := by decide

/-! ### One command each -/

theorem test_nop : answer .reset 0 = some (0#4, 0#32) := by decide +kernel
theorem test_clear : (after (holding 5) 0x0100000000000000).map State.obuf = some [] := by decide +kernel
theorem test_push : (after (withBytes [0x55]) 0x020000000000001B).map State.obuf = some [0x55, 0x1B] := by decide +kernel
/-- H18: at capacity. -/
theorem test_push_full : answer (holding 64) 0x0200000000000001 = some (4#4, 0#32) := by decide +kernel
theorem test_readb : answer (withBytes (v1 ++ [0x65, 0x20])) 0x030000000000000D = some (0#4, 0x65#32) := by decide +kernel
/-- H17. -/
theorem test_readb_empty : answer .reset 0x0300000000000000 = some (5#4, 0#32) := by decide +kernel
/-- H15. -/
theorem test_read_info : answer .reset 0x040B000000000000 = some (0#4, 0x00400826#32) := by decide +kernel
/-- H16: a READ that succeeds leaves the code of the command before it. -/
theorem test_read_keeps_status :
    ((after .reset 0x0600000000000000).bind (after · 0x0400000000000000)).map State.status = some 1#32 := by decide +kernel
/-- H19. -/
theorem test_setp : (after .reset 0x050000003F800000).map State.param0 = some 0x3F800000#32 := by decide +kernel
theorem test_crc8_init : (after { State.reset with acc8 := 0#8 } 0x1000000000000000).map State.acc8 = some 0x77#8 := by
  decide +kernel
/-- C2. -/
theorem test_crc8_update : answer .reset 0x1100000000000055 = some (0#4, 0x9F#32) := by decide +kernel
theorem test_crc16_init : (after { State.reset with acc16 := 0#16 } 0x1200000000000000).map State.acc16 = some 0x3692#16 := by
  decide +kernel
/-- C7. -/
theorem test_crc16_update : answer .reset 0x1300000000000000 = some (0#4, 0xB7AD#32) := by decide +kernel
/-- C8. -/
theorem test_append_crc16 : built .reset 0x1400000000000000 = some ([0x92, 0x36], 0x77#8, 0x3692#16) := by decide +kernel
/-- C14. -/
theorem test_append_crc16_full : answer (holding 63) 0x1400000000000000 = some (4#4, 0#32) := by decide +kernel
/-- C9. -/
theorem test_verify_crc16 : (after (withBytes [0x92, 0x36]) 0x1500000000000000).map State.status = some 0x10#32 := by
  decide +kernel
/-- C11: shorter than two bytes. -/
theorem test_verify_crc16_short : answer (withBytes [0x92]) 0x1500000000000000 = some (0#4, 0#32) := by decide +kernel

/-- B2. -/
theorem test_build : built .reset 0x2000000000001234 =
    some ([0x55, 0x0E, 0x04, 0x66, 0x09, 0xC3, 0x34, 0x12, 0x40, 0x04, 0x4C, 0x00, 0x56, 0xFB],
      0x18#8, 0xFB56#16) := by decide +kernel
/-- B8: no such template. -/
theorem test_build_absent : answer .reset 0x2026000000000000 = some (2#4, 0#32) := by decide +kernel
/-- B22. -/
theorem test_build_twist : built { State.reset with param0 := 0x3F800000#32, param1 := 0xBF800000#32, param2 := 0x3F000000#32 } 0x2100000000000000 =
    some ([0x55, 0x1B, 0x04, 0x75, 0x09, 0xC3, 0x00, 0x00, 0x00, 0x3F, 0x60, 0x00, 0x00, 0x05, 0x18, 0x20, 0x05, 0x00, 0x00, 0x00, 0x00, 0x00, 0x00, 0x00, 0x00, 0xAF, 0x88],
      0x64#8, 0x88AF#16) := by decide +kernel
/-- H8: with `A`. -/
theorem test_build_twist_append : answer (holding 37) 0x2100010000000000 = some (0#4, 64#32) := by decide +kernel
/-- B18. -/
theorem test_build_gimbal : built { State.reset with ctrGimbal := 7#16, param0 := 0x3F000000#32, param1 := 0xBE800000#32 } 0x2200000000000000 =
    some ([0x55, 0x11, 0x04, 0x92, 0x09, 0x04, 0x07, 0x00, 0x00, 0x04, 0x69, 0x00, 0xFE, 0x00, 0x01, 0xB7, 0xF3],
      0x76#8, 0xF3B7#16) := by decide +kernel
/-- A gimbal build answers its length and counts. -/
theorem test_build_gimbal_counts :
    (after .reset 0x2200000000000000).map (fun t => (t.ctrJoy, t.ctrLed, t.ctrGimbal)) = some (0#16, 0#16, 1#16) := by
  decide +kernel
/-- B15. -/
theorem test_build_led : built { State.reset with ctrLed := 5#16 } 0x230000000000FF00 =
    some ([0x55, 0x10, 0x04, 0x56, 0x09, 0x18, 0x05, 0x00, 0x00, 0x3F, 0x32, 0x00, 0xFF, 0x00, 0x61, 0x37],
      0x7C#8, 0x3761#16) := by decide +kernel
/-- B16: the counter wraps with no error. -/
theorem test_build_led_wraps :
    (after { State.reset with ctrLed := 0xFFFF#16 } 0x23000000000000FF).map (fun t => (t.ctrLed, t.status)) =
      some (0#16, 0#32) := by decide +kernel
/-- B28. -/
theorem test_build_touch : built { State.reset with ctrJoy := 0x1235#16 } 0x2400000000000000 =
    some ([0x55, 0x0E, 0x04, 0x66, 0x09, 0x03, 0x35, 0x12, 0xA0, 0x48, 0x08, 0x01, 0xB6, 0x99],
      0x77#8, 0x99B6#16) := by decide +kernel
/-- B27: the counter wraps. -/
theorem test_build_touch_wraps : (after { State.reset with ctrJoy := 0xFFFF#16 } 0x2400000000000000).map State.ctrJoy = some 0#16 := by
  decide +kernel
/-- B29. -/
theorem test_build_boot : built .reset 0x2500000000000000 =
    some ([0x55, 0x0E, 0x04, 0x66, 0x09, 0xC3, 0x00, 0x00, 0x40, 0x04, 0x4C, 0x00, 0xE2, 0x8E, 0x55, 0x0D, 0x04, 0x33, 0x09, 0xC3, 0x00, 0x00, 0x40, 0x04, 0x01, 0x4A, 0xFE, 0x55, 0x10, 0x04, 0x56, 0x09, 0x18, 0x00, 0x00, 0x00, 0x3F, 0x32, 0xFF, 0xFF, 0xFF, 0x8B, 0x69],
      0xCD#8, 0x698B#16) := by decide +kernel
/-- B33: the whole sequence does not fit behind 43 bytes. -/
theorem test_build_boot_full : answer (holding 43) 0x2500010000000000 = some (4#4, 0#32) := by decide +kernel
/-- S4. -/
theorem test_split :
    (after (withBytes [1, 2, 3, 4, 5, 6, 7, 8, 9]) 0x3000000000000000).map (fun t => (t.tx, t.nframes)) =
      some ([⟨false, false, 0x201#29, 8, [1, 2, 3, 4, 5, 6, 7, 8]⟩, ⟨false, false, 0x201#29, 1, [9]⟩], 2#16) := by
  decide +kernel
/-- S1. -/
theorem test_split_empty : (after .reset 0x3000000000000000).map (fun t => (t.tx, t.nframes)) = some ([], 0#16) := by
  decide +kernel

/-! ### RX events (section 3.5) -/

/-- The data of X1. -/
def x1 : List Byte := [0x55, 0x1B, 0x04, 0x75, 0x09, 0xC3, 0x34, 0x12]
/-- The `joy` counter after a frame, from 7. -/
def joyAfter (f : CanFrame) : Half := (rxEvent f { State.reset with ctrJoy := 7#16 }).ctrJoy

theorem test_rx_match : joyAfter ⟨false, false, 0x201#29, 8, x1⟩ = 0x1235#16 := by decide +kernel
/-- X3, X4, X5 and X7. -/
theorem test_rx_ignored :
    joyAfter ⟨false, false, 0x202#29, 8, x1⟩ = 7#16 ∧ joyAfter ⟨true, false, 0x201#29, 8, x1⟩ = 7#16 ∧
      joyAfter ⟨false, true, 0x201#29, 8, x1⟩ = 7#16 ∧ joyAfter ⟨false, false, 0x201#29, 8, x1.set 3 0x76⟩ = 7#16 := by
  decide +kernel

/-! ### The quantisers (section 3.3) -/

/-- Halves, both clamps and an infinity. -/
theorem test_q11 (f : BitVec 11) :
    q11 f 0x3B000000#32 = 1025#11 ∧ q11 f 0xBB000000#32 = 1024#11 ∧ q11 f 0x407FE000#32 = 2047#11 ∧
      q11 f 0xC0801000#32 = 0#11 ∧ q11 f 0xC07FE000#32 = 1#11 ∧ q11 f 0x00000001#32 = 1024#11 ∧
      q11 f 0xFF800000#32 = 0#11 := by
  refine ⟨?_, ?_, ?_, ?_, ?_, ?_, ?_⟩ <;> rfl
/-- The ends of the range; a NaN takes the free value. -/
theorem test_q11_nan (f : BitVec 11) : q11 f 0x7FC00000#32 = f := by rfl
theorem test_q16 (f : Half) :
    q16 f 0x3A000000#32 = 0xFFFF#16 ∧ q16 f 0xBA000000#32 = 1#16 ∧ q16 f 0x3AC00000#32 = 0xFFFE#16 ∧
      q16 f 0x41FFFDF4#32 = 0x8001#16 ∧ q16 f 0x42000000#32 = 0x8000#16 := by
  refine ⟨?_, ?_, ?_, ?_, ?_⟩ <;> rfl
theorem test_q16_free (f : Half) : q16 f 0xC2000000#32 = f ∧ q16 f 0x7F800000#32 = f ∧ q16 f 0x7FC00000#32 = f := by
  refine ⟨?_, ?_, ?_⟩ <;> rfl

/-! ### The admission checks: EX with one thing wrong is refused -/

theorem test_refused_table_size : ({ exConfig with templates := exTemplates.take 37 }).admitted = false := by decide +kernel
theorem test_refused_w1 :
    ({ exConfig with templates := exTemplates.set 7 ⟨1, [], [], false, []⟩ }).admitted = false := by decide +kernel
theorem test_refused_w2 :
    ({ exConfig with templates := exTemplates.set 7 ⟨9, List.replicate 7 0, [3], true, []⟩ }).admitted = false := by
  decide +kernel
theorem test_refused_w3 :
    ({ exConfig with templates := exTemplates.set 7 ⟨14, exBody0, [12], true, []⟩ }).admitted = false := by decide +kernel
theorem test_refused_w4 : ({ exConfig with gimbalId := 2 }).admitted = false := by decide +kernel
theorem test_refused_w8 :
    ({ exConfig with templates := exTemplates.set 7 ⟨14, exBody0, [3], true, [(9, .red)]⟩ }).admitted = false := by
  decide +kernel
theorem test_refused_w10 : ({ exConfig with obufCap := 42 }).admitted = false := by decide +kernel
theorem test_refused_l2 : ({ exConfig with twistLayout := exTwistLayout.set 4 (16, [⟨.z, 9, 1, 0⟩]) }).admitted = false := by
  decide +kernel
theorem test_refused_l4 : ({ exConfig with twistLayout := exTwistLayout.take 4 }).admitted = false := by decide +kernel

/-! ### The written form (R98, R99, R302) -/

/-- R98's examples. -/
theorem test_assemble :
    (assembleLine "push" [.num 0x55]).map encode = some 0x0200000000000055#64 ∧
      (assembleLine "build.a" [.num 5, .num 0x0102]).map encode = some 0x2005010000000102#64 ∧
      (assembleLine "build_led" [.num 255, .num 0, .num 0]).map encode = some 0x23000000000000FF#64 ∧
      (assembleLine "read" [.reg "CTR_JOY"]).map encode = some 0x0402000000000000#64 := by decide +kernel
/-- 31.999, -0.25 and 1.0 of section 3.3. -/
theorem test_bits32 :
    bits32 ⟨false, 31999, 3⟩ = 0x41FFFDF4#32 ∧ bits32 ⟨true, 25, 2⟩ = 0xBE800000#32 ∧ bits32 ⟨false, 10, 1⟩ = 0x3F800000#32 := by
  decide +kernel
/-- V6: the first movement boots once, the second does not. -/
theorem test_session_boots_once :
    ((SessionCall.run id false .stop).1.count (.buildBoot false), (SessionCall.run id true .stop).1.count (.buildBoot false)) =
      (1, 0) := by decide +kernel

/-! ### The host's two questions -/

/-- With no input the block stays. -/
theorem test_idle : step State.reset = .next State.reset := rfl
/-- The word placed is the one that runs, before what was to come. -/
theorem test_fetch_first :
    (after { State.reset with inputs := [.command 0#64] } 0x1000000000000000).map State.inputs = some [.command 0#64] := by
  decide +kernel
/-! ### Witnesses: inputs that meet the hypotheses of the statements -/

/-- The first template of EX and its gimbal, LED and twist templates. -/
def t0 : Template := exTemplate exBody0 []
def tLed : Template := exTemplate exBodyLed [(11, .red), (12, .green), (13, .blue)]
def tGimbal : Template := exTemplate exBodyGimbal [(11, .pitchLo), (12, .pitchHi), (13, .yawLo), (14, .yawHi)]

/-- A block with one word, or one frame, waiting. -/
def waiting (w : CommandWord) : State := { State.reset with inputs := [.command w] }
def receiving (f : CanFrame) : State := { State.reset with inputs := [.rx f] }

theorem witness_StepRunsTheDecodedCommand :
    ((waiting 0#64).delivers 0#64 [] ∧ decode 0#64 = .ok .nop) ∧
      (receiving ⟨false, false, 0x201#29, 8, x1⟩).inputs = .rx ⟨false, false, 0x201#29, 8, x1⟩ :: [] ∧
      State.reset.inputs = [] := ⟨⟨rfl, by decide⟩, rfl, rfl⟩
theorem witness_DecodeInvertsEncode : (Instr.read 0x0B#8).wf = true := by decide
theorem witness_EncodeInvertsDecode : decode 0x2005010000000102#64 = .ok (.build 5#8 true 0x0102#16) := by decide
theorem witness_UndecodableWordRaisesIllegalOp :
    (waiting 0x040C000000000000#64).delivers 0x040C000000000000#64 [] ∧
      decode 0x040C000000000000#64 = .error .operandRange := ⟨rfl, by decide⟩
theorem witness_ErrorsArePrecise :
    ∃ t, (waiting 0x2026000000000000#64).delivers 0x2026000000000000#64 [] ∧
      step (waiting 0x2026000000000000#64) = .next t ∧ answered (waiting 0x2026000000000000#64) t 2#4 0#32 ∧ (2#4 : BitVec 4) ≠ 0#4 :=
  ⟨_, rfl, rfl, rfl, by decide⟩
/-- A READ that succeeds, a READ that fails, a command that is no READ. -/
theorem witness_EveryCommandWritesItsCode :
    (∃ t, exec (.read 0#8) .reset = .next t ∧ answered .reset t 0#4 0#32) ∧
      (∃ t, exec (.read 0x0C#8) .reset = .next t ∧ answered .reset t 1#4 0#32) ∧
      ∃ t, exec (.readb 0#16) .reset = .next t ∧ answered .reset t 5#4 0#32 :=
  ⟨⟨_, rfl, rfl⟩, ⟨_, rfl, rfl⟩, ⟨_, rfl, rfl⟩⟩
theorem witness_OnlyVerifyWritesV : ∃ t, exec .split { State.reset with status := 0x15#32 } = .next t ∧ Instr.split ≠ .verifyCrc16 :=
  ⟨_, rfl, by decide⟩
/-- One byte fits behind 63 and none behind 64. -/
theorem witness_PushAppendsItsByte :
    (holding 63).obuf.length + 1 ≤ (holding 63).cap ∧ (holding 64).cap < (holding 64).obuf.length + 1 := by decide +kernel
theorem witness_ReadbReadsOneByte :
    (withBytes [7, 8]).obuf[(1#16 : Half).toNat]? = some 8#8 ∧ (withBytes [7, 8]).obuf.length ≤ (2#16 : Half).toNat := by
  decide +kernel
theorem witness_ReadReturnsTheRegister : 0x0B < (0x0C#8 : Byte).toNat := by decide
theorem witness_SetpLoadsItsParameter : 2 < (3#8 : Byte).toNat := by decide
theorem witness_Crc8UpdateAdvancesByOneByte : State.reset.acc8 = 0x77#8 := rfl
theorem witness_Crc16UpdateAdvancesByOneByte : State.reset.acc16 = 0x3692#16 := rfl
theorem witness_AppendCrc16AppendsTheTrailer :
    (holding 62).obuf.length + 2 ≤ (holding 62).cap ∧ (holding 63).cap < (holding 63).obuf.length + 2 := by decide +kernel
theorem witness_VerifyCrc16ChecksTheTrailer :
    ((withBytes (v1 ++ [0x65, 0x20])).obuf = v1 ++ [0x65, 0x20] ∧ crc16 v1 = 0x20#8 ++ 0x65#8) ∧
      ((withBytes [0, 0]).obuf = [] ++ [0, 0] ∧ crc16 [] ≠ 0#8 ++ 0#8) ∧ (withBytes [0x92]).obuf.length < 2 := by
  decide +kernel
theorem witness_VerifyMeansResidueZero : 2 ≤ ([0x92, 0x36] : Memory).length := by decide
/-- The last trailer byte of V1 changed. -/
theorem witness_SingleByteChangesAreCaught :
    verifies (withBytes (v1 ++ [0x65, 0x20])).obuf = true ∧ 14 < (withBytes (v1 ++ [0x65, 0x20])).obuf.length ∧
      (withBytes (v1 ++ [0x65, 0x20])).obuf[14]? ≠ some 0x21#8 := by decide +kernel
theorem witness_AppendThenVerifyHolds : (holding 62).obuf.length + 2 ≤ (holding 62).cap := by decide +kernel
/-- A marker, both counter bytes, a tagged byte, a literal byte; a source and none. -/
theorem witness_BuiltBytesFollowTheRoles :
    (3 < tLed.bodyLen ∧ 3 ∈ tLed.crc8) ∧ (6 ∉ tLed.crc8 ∧ 7 ∉ tLed.crc8 ∧ tLed.ctr = true) ∧
      (11 < tLed.bodyLen ∧ 11 ∉ tLed.crc8 ∧ ¬(tLed.ctr = true ∧ (11 = 6 ∨ 11 = 7)) ∧ tLed.tagAt 11 = some .red) ∧
      (5 < tLed.bodyLen ∧ 5 ∉ tLed.crc8 ∧ ¬(tLed.ctr = true ∧ (5 = 6 ∨ 5 = 7)) ∧ tLed.tagAt 5 = none ∧
        tLed.body[5]? = some 0x18#8) := by decide +kernel
theorem witness_BuiltCommandEndsInItsCrc16 : 2 ≤ t0.len := by decide
/-- 14 bytes fit behind 50 and not behind 51; identifier 38 is absent. -/
theorem witness_BuildBuildsAnyTemplate :
    ((holding 50).config.val.templates[(37#8 : Byte).toNat]? = some t0 ∧ (holding 50).fits true t0.len) ∧
      ((holding 51).config.val.templates[(37#8 : Byte).toNat]? = some t0 ∧ ¬(holding 51).fits true t0.len) ∧
      38 ≤ (38#8 : Byte).toNat ∧
      (({ exConfig with templates := [⟨1, [], [], false, []⟩] }).templates[0]? = some ⟨1, [], [], false, []⟩ ∧ 1 < 2) :=
  ⟨⟨by decide +kernel, by unfold State.fits; decide +kernel⟩, ⟨by decide +kernel, by unfold State.fits; decide +kernel⟩,
    by decide, by decide +kernel⟩
/-- BUILD_LED, BUILD_GIMBAL, BUILD_TWIST, BUILD_TOUCH and BUILD_BOOT: the length of each under EX fits behind what is left
and not behind one byte more (the statements BuildTwistBuildsFromTheParameters to BuildBootBuildsTheSequence). -/
theorem witness_FamilyBuilds (n : Nat) (h : n = 14 ∨ n = 16 ∨ n = 17 ∨ n = 27 ∨ n = 43) :
    (holding (64 - n)).fits true n ∧ ¬(holding (65 - n)).fits true n := by
  obtain rfl | rfl | rfl | rfl | rfl := h <;> unfold State.fits <;> decide +kernel
theorem witness_ReplacingBuildsAlwaysComplete : (37#8 : Byte).toNat < 38 := by decide
/-- The offset of EX that holds slices of two fields, and the one with a literal bit left. -/
theorem witness_TwistBytesCarryTheSlices :
    (∃ t, exAdmitted.val.templates[exAdmitted.val.twistId]? = some t) ∧
      (13, [⟨.x, 8, 3, 0⟩, ⟨.y, 0, 5, 3⟩]) ∈ exAdmitted.val.twistLayout ∧
      (16, [⟨.z, 10, 1, 0⟩]) ∈ exAdmitted.val.twistLayout ∧
      ∀ sl ∈ ([⟨.z, 10, 1, 0⟩] : List Slice), ¬(sl.dst ≤ 2 ∧ 2 < sl.dst + sl.width) :=
  ⟨⟨_, rfl⟩, by decide +kernel, by decide +kernel, by decide⟩
theorem witness_TwistCommandDeterminesItsFields :
    ∃ t, exAdmitted.val.templates[exAdmitted.val.twistId]? = some t ∧
      (buildCmd t 0#16 (some (twistSource exAdmitted.val t ⟨1024#11, 0#11, 2047#11⟩))).bytes =
        (buildCmd t 0#16 (some (twistSource exAdmitted.val t ⟨1024#11, 0#11, 2047#11⟩))).bytes := ⟨_, rfl, rfl⟩
theorem witness_GimbalAndLedBytesStandAtTheirTags :
    (exAdmitted.val.templates[exAdmitted.val.gimbalId]? = some tGimbal ∧ (14, .yawHi) ∈ tGimbal.param ∧ 14 ∉ tGimbal.crc8) ∧
      exAdmitted.val.templates[exAdmitted.val.ledId]? = some tLed ∧ (11, .red) ∈ tLed.param ∧ 11 ∉ tLed.crc8 := by
  decide +kernel
/-- Each of the five builds succeeds from reset with its length as the answer. -/
theorem witness_VerifyHoldsAfterAReplacingBuild :
    (∃ t, exec (.build 0#8 false 0#16) .reset = .next t ∧ answered .reset t 0#4 14#32) ∧
      (∃ t, exec (.buildTwist false) .reset = .next t ∧ answered .reset t 0#4 27#32) ∧
      (∃ t, exec (.buildGimbal false) .reset = .next t ∧ answered .reset t 0#4 17#32) ∧
      (∃ t, exec (.buildLed false 1#8 2#8 3#8) .reset = .next t ∧ answered .reset t 0#4 16#32) ∧
      ∃ t, exec (.buildTouch false) .reset = .next t ∧ answered .reset t 0#4 14#32 :=
  ⟨⟨_, rfl, by unfold answered; decide +kernel⟩, ⟨_, rfl, by unfold answered; decide +kernel⟩,
    ⟨_, rfl, by unfold answered; decide +kernel⟩, ⟨_, rfl, by unfold answered; decide +kernel⟩,
    ⟨_, rfl, by unfold answered; decide +kernel⟩⟩
/-- Two states that agree where they must and nowhere else. -/
theorem witness_BuildsDependOnNothingElse :
    ∃ s₁ s₂ t₁ t₂ : State, s₁.config = s₂.config ∧ sameCounters s₁ s₂ ∧ sameParams s₁ s₂ ∧ s₁.draws = s₂.draws ∧
      s₁.obuf ≠ s₂.obuf ∧ s₁.acc8 ≠ s₂.acc8 ∧ exec (.buildTwist false) s₁ = .next t₁ ∧ exec (.buildTwist false) s₂ = .next t₂ :=
  ⟨.reset, { holding 3 with acc8 := 0#8 }, _, _, rfl, ⟨rfl, rfl, rfl⟩, ⟨rfl, rfl, rfl⟩, rfl, by decide +kernel,
    by decide +kernel, rfl, rfl⟩
/-- A finite pattern, both infinities, a NaN. -/
theorem witness_TwistQuantiserIsTheFormula :
    ((0x407FE000#32 : Word).extractLsb' 23 8).toNat ≠ 255 ∧
      (((0xFF800000#32 : Word).extractLsb' 23 8).toNat = 255 ∧ ((0xFF800000#32 : Word).extractLsb' 0 23).toNat = 0) ∧
      ((0x7FC00000#32 : Word).extractLsb' 23 8).toNat = 255 ∧ ((0x7FC00000#32 : Word).extractLsb' 0 23).toNat ≠ 0 := by decide
/-- 32.0, whose result is the least of the range, and -32.0, whose result is the first above it; an infinity. -/
theorem witness_GimbalQuantiserIsTheFormula :
    (((0x42000000#32 : Word).extractLsb' 23 8).toNat = 132 ∧ ((0x42000000#32 : Word).extractLsb' 0 23).toNat = 0 ∧
        (0x42000000#32 : Word).getLsbD 31 = false ∧ -1024 * (((2 ^ 23 + 0 : ℕ) : ℚ) * 2 ^ ((132 : ℤ) - 150)) = -32768) ∧
      (((0xC2000000#32 : Word).extractLsb' 23 8).toNat = 132 ∧ ((0xC2000000#32 : Word).extractLsb' 0 23).toNat = 0 ∧
        (0xC2000000#32 : Word).getLsbD 31 = true ∧ -1024 * (-1 * (((2 ^ 23 + 0 : ℕ) : ℚ) * 2 ^ ((132 : ℤ) - 150))) = 32768) ∧
      ((0x7F800000#32 : Word).extractLsb' 23 8).toNat = 255 :=
  ⟨⟨by decide, by decide, by decide, by norm_num⟩, ⟨by decide, by decide, by decide, by norm_num⟩, by decide⟩
/-- A chunk that is not the last and the last one. -/
theorem witness_SplitCutsAtEveryEighthByte :
    (splitBytes [1, 2, 3, 4, 5, 6, 7, 8, 9])[0]? = some [1, 2, 3, 4, 5, 6, 7, 8] ∧ 0 + 1 < (9 + 7) / 8 ∧
      (splitBytes [1, 2, 3, 4, 5, 6, 7, 8, 9])[1]? = some [9] ∧ 1 + 1 = (9 + 7) / 8 := by decide +kernel
theorem witness_SplitOfWholeFramesIsSeparate : ([1, 2, 3, 4, 5, 6, 7, 8] : List Byte).length % 8 = 0 := by decide
theorem witness_RxResynchronisesJoyOnly :
    ((⟨false, false, 0x201#29, 8, x1⟩ : CanFrame).data = [0x55#8, 0x1B#8, 0x04#8, 0x75#8, 0x09#8, 0xC3#8, 0x34#8, 0x12#8]) ∧
      ¬((⟨false, false, 0x201#29, 7, x1.take 7⟩ : CanFrame).dlc = 8) := by decide
theorem witness_EitherOrderOfTouchAndTelemetry :
    resyncValue ⟨false, false, 0x201#29, 8, x1⟩ = some (0x1234#16 + 1#16) ∧
      decode 0x2400000000000000#64 = .ok (.buildTouch false) := by decide +kernel
/-- A word of each command, and buffers where each just fits and just does not. -/
theorem witness_EitherOrderOfJoyBuildsAndTelemetry :
    (resyncValue ⟨false, false, 0x201#29, 8, x1⟩ = some (0x1234#16 + 1#16) ∧
        decode 0x2100010000000000#64 = .ok (.buildTwist true) ∧ decode 0x2400010000000000#64 = .ok (.buildTouch true)) ∧
      (holding 37).fits true 27 ∧ ¬(holding 38).fits true 27 ∧
      (holding 50).fits true (10 + exAdmitted.val.touchB.length) ∧
      ¬(holding 51).fits true (10 + exAdmitted.val.touchB.length) := by unfold State.fits; decide +kernel
/-- Each counter's build, one that fails, and a command of no family. -/
theorem witness_CountersStepOnlyByTheirFamily :
    (∃ t, exec (.buildTwist false) .reset = .next t ∧ answered .reset t 0#4 27#32) ∧
      (∃ t, exec (.buildTouch true) (holding 64) = .next t ∧ answered (holding 64) t 4#4 0#32) ∧
      ∃ t, exec .nop .reset = .next t ∧ answered .reset t 0#4 0#32 :=
  ⟨⟨_, rfl, by unfold answered; decide +kernel⟩, ⟨_, rfl, by unfold answered; decide +kernel⟩, ⟨_, rfl, rfl⟩⟩
/-- A command that changes each register. -/
theorem witness_RegistersHaveOnlyTheirWriters :
    (∃ t, exec (.crc8Update 1#8) .reset = .next t ∧ t.acc8 ≠ State.reset.acc8) ∧
      (∃ t, exec (.crc16Update 1#8) .reset = .next t ∧ t.acc16 ≠ State.reset.acc16) ∧
      (∃ t, exec (.setp 2#8 1#32) .reset = .next t ∧ ¬sameParams .reset t) ∧
      ∃ t, exec .split (holding 1) = .next t ∧ t.nframes ≠ (holding 1).nframes :=
  ⟨⟨_, rfl, by decide +kernel⟩, ⟨_, rfl, by decide +kernel⟩, ⟨_, rfl, by unfold sameParams; decide +kernel⟩,
    ⟨_, rfl, by decide +kernel⟩⟩
theorem witness_CommandsThatStoreNothingKeepTheBuffer : ∃ t, exec .split (holding 9) = .next t := ⟨_, rfl⟩
/-- A PUSH and an appending build over a byte that is there. -/
theorem witness_StoresGoBehindTheBase :
    (∃ t, exec (.push 1#8) (holding 3) = .next t ∧ (holding 3).readByte 2 = some 0#8) ∧
      ∃ t, exec (.build 0#8 true 0#16) (holding 3) = .next t ∧ (holding 3).readByte 2 = some 0#8 ∧ 2 < (holding 3).base true :=
  ⟨⟨_, rfl, by decide +kernel⟩, ⟨_, rfl, by decide +kernel, by decide +kernel⟩⟩
theorem witness_TxStreamOnlyGrows :
    (∃ t, step (waiting 0x3000000000000000#64) = .next t) ∧ ∃ t, exec .clear .reset = .next t ∧ Instr.clear ≠ .split :=
  ⟨⟨_, rfl⟩, ⟨_, rfl, by decide⟩⟩
theorem witness_ConfigurationNeverChanges : ∃ t, step (waiting 0#64) = .next t := ⟨_, rfl⟩
/-- A state in the middle of its work, and a step from it. -/
theorem witness_StepKeepsTheInvariant :
    ∃ s t, Invariant s ∧ s.obuf.length = 64 ∧ step s = .next t :=
  ⟨{ holding 64 with inputs := [.command 0x3000000000000000#64] }, _,
    ⟨by decide +kernel, by decide +kernel, by decide +kernel, fun _ h => by simp [holding, State.reset, State.resetWith] at h,
      by decide +kernel⟩, by decide +kernel, rfl⟩

end Sys2Proof.Tests
end

section
/-! The step, said once per kind of input (spec/00_scope.md R5, spec/10_state.md R20, spec/20_memory.md R72), and the
scope statement built from it. -/

namespace Sys2Proof.Proofs
open Sys2Proof.Machine

/-- A delivered word is worked off by `commandStep`, whether or not it decodes. -/
theorem step_of_delivers {s : State} {w : CommandWord} {rest : List Input} (h : s.delivers w rest) :
    step s = commandStep w (s.taken rest) := by
  rw [State.delivers] at h
  simp only [step, h, State.taken]

/-- A frame is worked off by `rxEvent`, and the block always goes on (R221). -/
theorem step_of_rx {s : State} {f : CanFrame} {rest : List Input} (h : s.inputs = .rx f :: rest) :
    step s = .next (rxEvent f (s.taken rest)) := by
  simp only [step, h, State.taken]

/-- The stutter of notes/assumptions/2.md. -/
theorem step_of_no_input {s : State} (h : s.inputs = []) : step s = .next s := by
  simp only [step, h]

theorem commandStep_of_decode_ok {w : CommandWord} {i : Instr} (h : decode w = .ok i) (s : State) :
    commandStep w s = exec i s := by
  simp only [commandStep, h]

/-- Settles O1: the step's three kinds of input, and the decoded branch of `commandStep`. -/
theorem stepRunsTheDecodedCommand : Obligations.StepRunsTheDecodedCommand := by
  refine ⟨fun s w rest i hs hw => ?_, fun _ _ _ => step_of_rx, fun _ => step_of_no_input⟩
  rw [step_of_delivers hs, commandStep_of_decode_ok hw]

end Sys2Proof.Proofs
end

section
/-! What commands and steps do to each kind of state (spec/10_state.md R20 to R39): the frame of an effect field by field,
what a step keeps as one lemma, and the statements about the state built from them. -/

namespace Sys2Proof.Machine

/-! ### What a command's effect leaves unchanged -/

section Effects

variable {s u : State} {i : Instr} {d : Word}

/-- The configuration is no state: no effect writes it (R21). -/
theorem Effect.config_eq (h : Effect s i u d) : u.config = s.config := by cases h <;> rfl

/-- The one response of a command is its answer's: the effect gives none (R35). -/
theorem Effect.responses_eq (h : Effect s i u d) : u.responses = s.responses := by cases h <;> rfl

/-- Of the effects only VERIFY_CRC16's writes `STATUS`, and there only `V` (R29, R137). -/
theorem Effect.status_cases (h : Effect s i u d) :
    u.status = s.status ∨ i = .verifyCrc16 ∧ u.status = setV s.status (verifies s.obuf) := by
  cases h with
  | verifyCrc16 => exact .inr ⟨rfl, rfl⟩
  | _ => exact .inl rfl

/-- Of the effects only SPLIT's touches the TX port, and it emits the buffer's chunks (R33, R202). -/
theorem Effect.tx_cases (h : Effect s i u d) :
    (u.tx = s.tx ∧ u.nframes = s.nframes) ∨
      i = .split ∧ u.tx = s.tx ++ (splitBytes s.obuf).map frameOf ∧
        u.nframes = BitVec.ofNat 16 (splitBytes s.obuf).length := by
  cases h with
  | split => exact .inr ⟨rfl, rfl, rfl⟩
  | _ => exact .inl ⟨rfl, rfl⟩

/-- A build leaves the buffer as the placement of its bytes does (R93, R165). -/
theorem Effect.obuf_of_build {a : Bool} (h : Effect s i u d)
    (hi : (∃ id c, i = .build id a c) ∨ i = .buildTwist a ∨ i = .buildGimbal a ∨ (∃ r g b, i = .buildLed a r g b) ∨
      i = .buildTouch a ∨ i = .buildBoot a) : ∃ bytes, u.obuf = (s.placed a bytes).obuf := by
  obtain ⟨id, c, rfl⟩ | rfl | rfl | ⟨r, g, b, rfl⟩ | rfl | rfl := hi <;> cases h <;> exact ⟨_, rfl⟩

/-- PUSH and APPEND_CRC16 put bytes behind the contents, as an appending build does (R232, R136). -/
theorem Effect.obuf_of_append (h : Effect s i u d) (hi : (∃ b, i = .push b) ∨ i = .appendCrc16) :
    ∃ bytes, u.obuf = (s.placed true bytes).obuf := by
  obtain ⟨b, rfl⟩ | rfl := hi <;> cases h <;> exact ⟨_, rfl⟩

end Effects

/-- Whatever the command, its answer included, only SPLIT touches the TX port. -/
theorem exec_tx_cases {i : Instr} {s t : State} (h : exec i s = .next t) :
    t.tx = s.tx ∨ i = .split ∧ ∃ new, t.tx = s.tx ++ new := by
  obtain ⟨u, d, hu, rfl⟩ | ⟨e, -, rfl⟩ | ⟨n, v, -, -, rfl⟩ := exec_cases h
  · exact hu.tx_cases.imp (·.1) fun ⟨hi, htx, _⟩ => ⟨hi, _, htx⟩
  · exact .inl rfl
  · exact .inl rfl

theorem exec_config {i : Instr} {s t : State} (h : exec i s = .next t) : t.config = s.config := by
  obtain ⟨u, d, hu, rfl⟩ | ⟨e, -, rfl⟩ | ⟨n, v, -, -, rfl⟩ := exec_cases h
  · exact hu.config_eq
  · rfl
  · rfl

/-- What a command has done, told by the response it gave: code 0 for an effect or a READ's answer, the nonzero code of
the error otherwise (R35, R250). -/
theorem exec_answered_cases {i : Instr} {s t : State} {code : BitVec 4} {data : Word} (h : exec i s = .next t)
    (ha : answered s t code data) :
    (∃ u, Effect s i u data ∧ code = 0#4 ∧ t = u.succeed data) ∨
      (∃ e, code = e.code ∧ data = 0#32 ∧ code ≠ 0#4 ∧ t = s.raiseError e) ∨
      ∃ n, i = .read n ∧ code = 0#4 ∧ t = s.answerRead data := by
  rw [answered] at ha
  obtain ⟨u, d, hu, rfl⟩ | ⟨e, he, rfl⟩ | ⟨n, v, hi, -, rfl⟩ := exec_cases h
  · obtain ⟨rfl, rfl⟩ : 0#4 = code ∧ d = data := by simpa [hu.responses_eq] using ha
    exact .inl ⟨u, hu, rfl, rfl⟩
  · obtain ⟨rfl, rfl⟩ : e.code = code ∧ 0#32 = data := by simpa using ha
    exact .inr (.inl ⟨e, rfl, rfl, mt (code_eq_zero_iff e).1 he, rfl⟩)
  · obtain ⟨rfl, rfl⟩ : 0#4 = code ∧ v = data := by simpa using ha
    exact .inr (.inr ⟨n, hi, rfl, rfl⟩)

/-! ### The step -/

/-- An RX event writes `joy` and nothing else (R221). -/
theorem rxEvent_eq (f : CanFrame) (s : State) : rxEvent f s = { s with ctrJoy := (resyncValue f).getD s.ctrJoy } := by
  rw [rxEvent]
  cases resyncValue f <;> rfl

/-- What one step keeps: a predicate kept by each thing a step is made of, the input taken, a rejected word, a command,
`joy` written by an RX event (R20, R94, R221). -/
theorem step_keeps {P : State → Prop} {s t : State} (h : step s = .next t) (start : P s)
    (take : ∀ u rest, P u → P (u.taken rest)) (reject : ∀ u, P u → P (u.raiseError .illegalOp))
    (command : ∀ i u v, P u → exec i u = .next v → P v) (receive : ∀ u c, P u → P (u.setCtr .joy c)) : P t := by
  cases hs : s.inputs with
  | nil =>
    rw [Proofs.step_of_no_input hs] at h
    cases h
    exact start
  | cons input rest =>
    have taken := take s rest start
    cases input with
    | command w =>
      cases hw : decode w with
      | error e =>
        rw [decode_error_raises hw s rest hs] at h
        cases h
        exact reject _ taken
      | ok i =>
        rw [Proofs.step_of_delivers hs, Proofs.commandStep_of_decode_ok hw] at h
        exact command i _ _ taken h
    | rx f =>
      rw [Proofs.step_of_rx hs, rxEvent_eq] at h
      cases h
      exact receive _ _ taken

/-! ### The invariant -/

/-- The invariant reads five fields of the state. -/
theorem Invariant.of_fields {s t : State} (h : Invariant s) (config : t.config = s.config) (obuf : t.obuf = s.obuf)
    (status : t.status = s.status) (tx : t.tx = s.tx) (nframes : t.nframes = s.nframes) : Invariant t where
  buffer := by rw [State.cap, config, obuf]; exact h.buffer
  code := by rw [status]; exact h.code
  reserved := by rw [status]; exact h.reserved
  frames := by rw [tx]; exact h.frames
  count := by rw [nframes]; exact h.count

/-- Writing a result code keeps the invariant, since every code is at most 5 (R29, R250). -/
theorem Invariant.setErr {s : State} (h : Invariant s) (e : ErrCode) :
    Invariant { s with status := setErr s.status e } where
  buffer := h.buffer
  code := by simpa using code_le_five e
  reserved := by simpa using h.reserved
  frames := h.frames
  count := h.count

theorem Invariant.raiseError {s : State} (h : Invariant s) (e : ErrCode) : Invariant (s.raiseError e) :=
  (h.setErr e).of_fields rfl rfl rfl rfl rfl

theorem Invariant.succeed {s : State} (h : Invariant s) (d : Word) : Invariant (s.succeed d) :=
  (h.setErr .ok).of_fields rfl rfl rfl rfl rfl

/-- A chunk's frame is one the TX port may carry (R106, R203). -/
theorem sentFrame_frameOf {m chunk : List Byte} (h : chunk ∈ splitBytes m) : SentFrame (frameOf chunk) :=
  ⟨rfl, rfl, rfl, (chunk_bounds h).1, (chunk_bounds h).2, rfl⟩

/-- A buffer within an admitted capacity, at most 65535, is cut into at most 8192 chunks (R6, R202). -/
theorem splitBytes_length_le (c : AdmittedConfig) {m : List Byte} (h : m.length ≤ c.val.obufCap) :
    (splitBytes m).length ≤ 8192 := by
  obtain ⟨-, -, -, -, -, hcap, -⟩ := (checks c).ranges
  rw [splitBytes_length]
  omega

theorem Effect.keeps_invariant {s u : State} {i : Instr} {d : Word} (h : Effect s i u d) (inv : Invariant s) :
    Invariant u where
  buffer := h.keeps_wf inv.buffer
  code := by obtain hst | ⟨-, hst⟩ := h.status_cases <;> simpa [hst] using inv.code
  reserved := by obtain hst | ⟨-, hst⟩ := h.status_cases <;> simpa [hst] using inv.reserved
  frames := by
    obtain ⟨htx, -⟩ | ⟨-, htx, -⟩ := h.tx_cases
    · simpa [htx] using inv.frames
    · intro f hf
      rw [htx, List.mem_append, List.mem_map] at hf
      obtain hf | ⟨chunk, hc, rfl⟩ := hf
      · exact inv.frames f hf
      · exact sentFrame_frameOf hc
  count := by
    obtain ⟨-, hn⟩ | ⟨-, -, hn⟩ := h.tx_cases
    · simpa [hn] using inv.count
    · have hle := splitBytes_length_le s.config (by simpa using inv.buffer)
      rw [hn, BitVec.toNat_ofNat, Nat.mod_eq_of_lt (by omega)]
      exact hle

theorem exec_keeps_invariant {i : Instr} {s t : State} (inv : Invariant s) (h : exec i s = .next t) : Invariant t := by
  obtain ⟨u, d, hu, rfl⟩ | ⟨e, -, rfl⟩ | ⟨n, v, -, -, rfl⟩ := exec_cases h
  · exact (hu.keeps_invariant inv).succeed d
  · exact inv.raiseError e
  · exact inv.of_fields rfl rfl rfl rfl rfl

/-! ### Bytes below the base of a build -/

/-- What a build with the append flag `a` places goes from `base` on (R93). -/
theorem placed_below_base {s : State} {a : Bool} {j : Nat} (h : j < s.base a) (bytes : List Byte) :
    (s.placed a bytes).obuf[j]? = s.obuf[j]? := by
  cases a with
  | false => exact absurd h (Nat.not_lt_zero j)
  | true => exact List.getElem?_append_left h

/-! ### Replacing LED builds -/

/-- A BUILD_LED with `A = 0` always fits: it succeeds and counts (R175, R186). -/
theorem exec_buildLed_replacing (s : State) (r g b : Byte) :
    ∃ t d, exec (.buildLed false r g b) s = .next t ∧ t.ctrLed = s.ctrLed + 1#16 ∧
      t.responses = s.responses ++ [⟨0#4, d⟩] := by
  obtain ⟨u, hu⟩ := led_present s.config
  have hfits : s.fits false u.len := by simpa [State.fits] using (len_bounds _ hu).2
  have hbuild := (templateBuild_eq s s.config.val.ledId false s.ctrLed fun t => some (ledSource t ⟨r, g, b⟩)).1 u hu hfits
  exact ⟨_, _, by rw [exec, execBuildLed, hbuild]; rfl, rfl, rfl⟩

/-- `n` of them in turn: `n` responses, all `OK`, and `n` counts. -/
theorem runCommands_buildLed_replacing (r g b : Byte) (n : Nat) (s : State) :
    ∃ t new, runCommands (List.replicate n (.buildLed false r g b)) s = .next t ∧
      t.ctrLed = s.ctrLed + BitVec.ofNat 16 n ∧ t.responses = s.responses ++ new ∧ new.length = n ∧
      ∀ x ∈ new, x.code = 0#4 := by
  induction n generalizing s with
  | zero => exact ⟨s, [], rfl, by simp, by simp, rfl, by simp⟩
  | succ n ih =>
    obtain ⟨m, d, hm, hled, hresp⟩ := exec_buildLed_replacing s r g b
    obtain ⟨t, new, ht, hled', hresp', hlen, hok⟩ := ih m
    refine ⟨t, ⟨0#4, d⟩ :: new, ?_, ?_, ?_, ?_, ?_⟩
    · rw [List.replicate_succ, runCommands, hm]
      exact ht
    · rw [hled', hled, BitVec.add_assoc, Nat.add_comm n 1, BitVec.ofNat_add]
    · simp [hresp', hresp]
    · simp [hlen]
    · simpa using hok

end Sys2Proof.Machine

namespace Sys2Proof.Proofs
open Sys2Proof.Machine

/-- Settles O58: each part of a step keeps the invariant. -/
theorem stepKeepsTheInvariant : Obligations.StepKeepsTheInvariant := fun _ _ inv h =>
  step_keeps h inv (fun _ _ hu => hu.of_fields rfl rfl rfl rfl rfl) (fun _ hu => hu.raiseError _)
    (fun _ _ _ => exec_keeps_invariant) (fun _ _ hu => hu.of_fields rfl rfl rfl rfl rfl)

/-- Settles O9: success and error write their code, and only READ's answer writes none. -/
theorem everyCommandWritesItsCode : Obligations.EveryCommandWritesItsCode := by
  intro i s t code data h ha
  obtain ⟨u, hu, rfl, rfl⟩ | ⟨e, rfl, -, hne, rfl⟩ | ⟨n, rfl, rfl, rfl⟩ := exec_answered_cases h ha
  · refine ⟨?_, fun _ => statusErr_setErr u.status .ok⟩
    rintro ⟨r, rfl, -⟩
    cases hu
  · refine ⟨?_, fun _ => statusErr_setErr s.status e⟩
    rintro ⟨r, -, h0⟩
    exact absurd h0 hne
  · exact ⟨fun _ => rfl, fun hno => absurd ⟨n, rfl, rfl⟩ hno⟩

/-- Settles O10: result codes lie in `STATUS[3:0]`, and only VERIFY_CRC16's effect writes `STATUS`. -/
theorem onlyVerifyWritesV : Obligations.OnlyVerifyWritesV := by
  intro i s t h
  obtain ⟨u, d, hu, rfl⟩ | ⟨e, -, rfl⟩ | ⟨n, v, -, -, rfl⟩ := exec_cases h
  · obtain hst | ⟨rfl, hst⟩ := hu.status_cases
    · simp [hst]
    · simp [hst]
  · simp
  · simp

/-- Settles O11: each outcome of a command appends its one response. -/
theorem eachCommandAnswersOnce : Obligations.EachCommandAnswersOnce := by
  intro i s
  obtain ⟨u, d, hu, h⟩ | ⟨e, -, h⟩ | ⟨n, v, -, -, h⟩ := exec_outcomes i s
  · exact ⟨_, _, h, by rw [State.succeed_responses, hu.responses_eq]⟩
  · exact ⟨_, _, h, rfl⟩
  · exact ⟨_, _, h, rfl⟩

/-- Settles O50: each effect names the counter it bumps, and an error or a READ names none. -/
theorem countersStepOnlyByTheirFamily : Obligations.CountersStepOnlyByTheirFamily := by
  intro i s t code data h ha
  obtain ⟨u, hu, rfl, rfl⟩ | ⟨e, rfl, -, hne, rfl⟩ | ⟨n, rfl, rfl, rfl⟩ := exec_answered_cases h ha
  · cases hu <;> simp
  · simp [hne]
  · simp

/-- Settles O51, by the run of `n` replacing builds; 65536 is 0 mod 2^16 (R24). -/
theorem ledCounterCountsItsBuilds : Obligations.LedCounterCountsItsBuilds := by
  intro n s r g b
  obtain ⟨t, new, ht, hled, hresp, hlen, hok⟩ := runCommands_buildLed_replacing r g b n s
  refine ⟨t, ht, ?_, by simp [hresp, hlen], by simpa [hresp] using hok, ?_⟩
  · rw [hled, BitVec.ofNat_add, BitVec.ofNat_toNat, BitVec.setWidth_eq]
  · rintro rfl
    simpa using hled

/-- Settles O52: each effect names the registers it writes, and an error or a READ names none. -/
theorem registersHaveOnlyTheirWriters : Obligations.RegistersHaveOnlyTheirWriters := by
  intro i s t h
  obtain ⟨u, d, hu, rfl⟩ | ⟨e, -, rfl⟩ | ⟨n, v, -, -, rfl⟩ := exec_cases h
  · cases hu <;> simp [sameParams]
  · simp [sameParams]
  · simp [sameParams]

/-- Settles O53: the effect of each command of the list keeps `obuf`, as an error and a READ do. -/
theorem commandsThatStoreNothingKeepTheBuffer : Obligations.CommandsThatStoreNothingKeepTheBuffer := by
  intro i s t h hi
  obtain ⟨u, d, hu, rfl⟩ | ⟨e, -, rfl⟩ | ⟨n, v, -, -, rfl⟩ := exec_cases h
  · cases hu <;> simp [sameBuffer] at hi ⊢
  · exact ⟨fun _ => rfl, rfl⟩
  · exact ⟨fun _ => rfl, rfl⟩

/-- Settles O54: what is stored goes behind the contents, or behind what the append flag keeps. -/
theorem storesGoBehindTheBase : Obligations.StoresGoBehindTheBase := by
  intro i s t j x h hx
  rw [State.readByte_eq] at hx
  obtain ⟨u, d, hu, rfl⟩ | ⟨e, -, rfl⟩ | ⟨n, v, -, -, rfl⟩ := exec_cases h
  · refine ⟨fun hi => ?_, fun a hi hj => ?_⟩
    · have hj : j < s.base true := (List.getElem?_eq_some_iff.1 hx).1
      obtain ⟨bytes, hobuf⟩ := hu.obuf_of_append hi
      rw [State.readByte_eq, State.succeed_obuf, hobuf, placed_below_base hj, hx]
    · obtain ⟨bytes, hobuf⟩ := hu.obuf_of_build hi
      rw [State.readByte_eq, State.succeed_obuf, hobuf, placed_below_base hj, hx]
  · exact ⟨fun _ => hx, fun _ _ _ => hx⟩
  · exact ⟨fun _ => hx, fun _ _ _ => hx⟩

/-- Settles O55: of the parts of a step only a SPLIT touches the stream, and it appends. -/
theorem txStreamOnlyGrows : Obligations.TxStreamOnlyGrows := by
  refine ⟨fun s t h => ?_, fun i s t h hi => (exec_tx_cases h).resolve_right fun hsplit => hi hsplit.1⟩
  refine step_keeps (P := fun u => ∃ new, u.tx = s.tx ++ new) h ⟨[], by simp⟩ (fun _ _ hu => hu) (fun _ hu => hu) ?_
    (fun _ _ hu => hu)
  rintro i u v ⟨new, hu⟩ hv
  obtain htx | ⟨-, more, htx⟩ := exec_tx_cases hv
  · exact ⟨new, by rw [htx, hu]⟩
  · exact ⟨new ++ more, by rw [htx, hu, List.append_assoc]⟩

/-- Settles O56: no part of a step writes the configuration. -/
theorem configurationNeverChanges : Obligations.ConfigurationNeverChanges := fun s _ h =>
  step_keeps (P := fun u => u.config = s.config) h rfl (fun _ _ hu => hu) (fun _ hu => hu)
    (fun _ _ _ hu hv => (exec_config hv).trans hu) (fun _ _ hu => hu)

/-- Settles O7: `setErr` writes `STATUS[3:0]` alone. -/
theorem successAndErrorWriteOnlyErr : Obligations.SuccessAndErrorWriteOnlyErr :=
  ⟨fun s _ => ⟨rfl, statusErr_setErr s.status .ok, upper_setErr s.status .ok, rfl⟩,
    fun s e => ⟨rfl, statusErr_setErr s.status e, upper_setErr s.status e, rfl⟩⟩

/-- Settles O59: the buffer and the TX stream are empty, `STATUS` and `NFRAMES` are 0. -/
theorem resetMeetsTheInvariant : Obligations.ResetMeetsTheInvariant := fun c =>
  { buffer := wf_nil c.val.obufCap
    code := show (statusErr 0#32).toNat ≤ 5 by decide
    reserved := show statusReserved 0#32 = 0#27 by decide
    frames := nofun
    count := Nat.zero_le _ }

/-- Settles O60: every value is the one `State.resetWith` writes out. -/
theorem resetStateIsAsListed : Obligations.ResetStateIsAsListed := fun _ =>
  ⟨rfl, rfl, rfl, rfl, rfl, rfl, rfl, rfl, rfl, rfl, rfl, rfl, rfl, rfl⟩

end Sys2Proof.Proofs
end

section
/-! Words and commands (spec/30_encoding.md R90 to R97): the fields a form spells, what a row of the opcode map says of its
opcode, form and command, and the statements about the decoder and encoder built from them. -/

namespace Sys2Proof
open Machine

/-! ### Operands as bits of `IMM` (R92) -/

/-- What has no bit from `k` on is its low `k` bits. -/
theorem setWidth_extractLsb'_of_shift_eq_zero {x : Word} {k : Nat} (h : x >>> k = 0#32) :
    (x.extractLsb' 0 k).setWidth 32 = x := by
  apply BitVec.eq_of_getLsbD_eq
  intro i hi
  by_cases hk : i < k
  · simp [hi, hk]
  · have bit : (x >>> k).getLsbD (i - k) = x.getLsbD i := by
      rw [BitVec.getLsbD_ushiftRight, Nat.add_sub_cancel' (by omega)]
    simp [hk, ← bit, h]

/-- An operand of `n` bits sets none from `n` on. -/
theorem setWidth_shift_eq_zero {n : Nat} (x : BitVec n) : x.setWidth 32 >>> n = 0#32 := by
  apply BitVec.eq_of_getLsbD_eq
  intro i hi
  simp

/-- The three colour bytes of form AC are one operand of 24 bits. -/
theorem colours_eq_setWidth (red green blue : Byte) :
    0#8 ++ blue ++ green ++ red = (blue ++ green ++ red).setWidth 32 := by
  apply BitVec.eq_of_toNat_eq
  rw [BitVec.toNat_setWidth_of_le (by omega)]
  simp only [BitVec.toNat_append, BitVec.toNat_ofNat, Nat.zero_mod, Nat.zero_shiftLeft, Nat.zero_or]

/-- The colour bytes of a word are its low 24 bits. -/
theorem immColours_eq (w : CommandWord) : immBlue w ++ immGreen w ++ immByte w = (immField w).extractLsb' 0 24 := by
  rw [immBlue, immGreen, immByte, BitVec.extractLsb'_append_extractLsb'_eq_extractLsb' (show 16 = 8 + 8 from rfl),
    BitVec.extractLsb'_append_extractLsb'_eq_extractLsb' (show 8 = 0 + 8 from rfl)]

section ReadBack

variable (opc sel : Byte) (a : Bool)

@[simp] theorem immByte_commandWord (b : Byte) : immByte (commandWord opc sel a (b.setWidth 32)) = b := by
  simp [immByte, BitVec.extractLsb'_setWidth_of_le]

@[simp] theorem immHalf_commandWord (x : Half) : immHalf (commandWord opc sel a (x.setWidth 32)) = x := by
  simp [immHalf, BitVec.extractLsb'_setWidth_of_le]

@[simp] theorem immByte_commandWord_colours (red green blue : Byte) :
    immByte (commandWord opc sel a (0#8 ++ blue ++ green ++ red)) = red := by
  rw [immByte, immField_commandWord, colours_eq_setWidth, BitVec.extractLsb'_setWidth_of_le (by omega)]
  exact BitVec.extractLsb'_append_eq_right

@[simp] theorem immGreen_commandWord_colours (red green blue : Byte) :
    immGreen (commandWord opc sel a (0#8 ++ blue ++ green ++ red)) = green := by
  rw [immGreen, immField_commandWord, colours_eq_setWidth, BitVec.extractLsb'_setWidth_of_le (by omega),
    BitVec.extractLsb'_append_eq_of_le (by omega)]
  exact BitVec.extractLsb'_append_eq_right

@[simp] theorem immBlue_commandWord_colours (red green blue : Byte) :
    immBlue (commandWord opc sel a (0#8 ++ blue ++ green ++ red)) = blue := by
  rw [immBlue, immField_commandWord, colours_eq_setWidth, BitVec.extractLsb'_setWidth_of_le (by omega),
    BitVec.extractLsb'_append_eq_of_le (by omega)]
  exact BitVec.extractLsb'_append_eq_left

end ReadBack

/-! ### The fields a form spells (R92) -/

/-- `SEL` as the form spells it: the word's where the form uses it. -/
def Form.spelledSel (f : Form) (w : CommandWord) : Byte := if f.usesSel then selField w else 0#8

/-- `A` as the form spells it. -/
def Form.spelledA (f : Form) (w : CommandWord) : Bool := f.usesA && aFlag w

/-- `IMM` put together from the operands the form reads. -/
def Form.spelledImm (f : Form) (w : CommandWord) : Word :=
  match f with
  | .n | .s | .af => 0#32
  | .b => (immByte w).setWidth 32
  | .x | .t => (immHalf w).setWidth 32
  | .ac => 0#8 ++ immBlue w ++ immGreen w ++ immByte w
  | .si => immField w

/-- In a word with no unused bit set (R94 (c)) the form spells the fields as they stand. -/
theorem spelled_of_unusedZero {f : Form} {w : CommandWord} (h : f.unusedZero w = true) :
    f.spelledSel w = selField w ∧ f.spelledA w = aFlag w ∧ f.spelledImm w = immField w := by
  simp only [Form.unusedZero, Bool.and_eq_true, Bool.or_eq_true, beq_iff_eq, Bool.not_eq_true'] at h
  obtain ⟨⟨hsel, ha⟩, himm⟩ := h
  have low := setWidth_extractLsb'_of_shift_eq_zero himm
  refine ⟨?_, ?_, ?_⟩
  · obtain used | zero := hsel
    · simp [Form.spelledSel, used]
    · simp [Form.spelledSel, zero]
  · obtain used | zero := ha
    · simp [Form.spelledA, used]
    · simp [Form.spelledA, zero]
  · cases f with
    | n | s | af => exact himm.symm
    | b | x | t => exact low
    | ac => rw [Form.spelledImm, colours_eq_setWidth, immColours_eq]; exact low
    | si => rfl

/-! ### The rows of the opcode map (R95) -/

section Rows

variable {b : Byte} {f : Form} {g : CommandWord → Instr}

/-- The command of a row has the row's opcode. -/
theorem opcode_of_row (row : opcodeRow b.toNat = some (f, g)) (w : CommandWord) : (g w).opcode = b := by
  unfold opcodeRow at row
  split at row <;> cases row <;> exact BitVec.eq_of_toNat_eq (Eq.symm ‹_›)

/-- The command of a row is spelled by the fields of the row's form. -/
theorem encode_of_row (row : opcodeRow b.toNat = some (f, g)) (w : CommandWord) :
    encode (g w) = commandWord b (f.spelledSel w) (f.spelledA w) (f.spelledImm w) := by
  rw [← opcode_of_row row w]
  unfold opcodeRow at row
  split at row <;> cases row <;> rfl

/-- The operand ranges of R94 (d) and (e), and that no other row has one. -/
theorem wf_eq_false_iff_of_row (row : opcodeRow b.toNat = some (f, g)) (w : CommandWord) :
    (g w).wf = false ↔ (b = 0x04#8 ∧ 0x0B < (selField w).toNat) ∨ (b = 0x05#8 ∧ 2 < (selField w).toNat) := by
  unfold opcodeRow at row
  split at row <;> cases row <;> rename_i opcode <;> simp [← BitVec.toNat_inj, opcode, Instr.wf, BitVec.lt_def]

/-- Which opcodes use which bits of `SEL`, `A` and `IMM` (R92, R95). -/
theorem usedBits_of_row (row : opcodeRow b.toNat = some (f, g)) :
    (f.usesSel = true ↔ b ∈ [0x04#8, 0x05#8, 0x20#8]) ∧
      (f.usesA = true ↔ b ∈ [0x20#8, 0x21#8, 0x22#8, 0x23#8, 0x24#8, 0x25#8]) ∧
      (f.immWidth = 0 ↔
        b ∈ [0x00#8, 0x01#8, 0x04#8, 0x10#8, 0x12#8, 0x14#8, 0x15#8, 0x21#8, 0x22#8, 0x24#8, 0x25#8, 0x30#8]) ∧
      (f.immWidth = 8 ↔ b ∈ [0x02#8, 0x11#8, 0x13#8]) ∧ (f.immWidth = 16 ↔ b ∈ [0x03#8, 0x20#8]) ∧
      (f.immWidth = 24 ↔ b = 0x23#8) := by
  unfold opcodeRow at row
  split at row <;> cases row <;> rename_i opcode <;>
    simp [← BitVec.toNat_inj, opcode, Form.usesSel, Form.usesA, Form.immWidth]

/-- The assigned opcodes (R94 (a), R95), over all 256 bytes. -/
theorem opcodeRow_isSome_iff : ∀ b : Byte, (opcodeRow b.toNat).isSome = true ↔
    b ∈ [0x00#8, 0x01#8, 0x02#8, 0x03#8, 0x04#8, 0x05#8, 0x10#8, 0x11#8, 0x12#8, 0x13#8, 0x14#8, 0x15#8,
      0x20#8, 0x21#8, 0x22#8, 0x23#8, 0x24#8, 0x25#8, 0x30#8] := by decide +kernel

end Rows

/-! ### The decoder on a row -/

/-- A command decodes from its word where its opcode's row reads it back, and the word sets only fields of the row's
form. -/
theorem decode_encode_of_row {i : Instr} {f : Form} {g : CommandWord → Instr} {sel : Byte} {a : Bool} {imm : Word}
    (row : opcodeRow i.opcode.toNat = some (f, g)) (spelled : encode i = commandWord i.opcode sel a imm)
    (hsel : f.usesSel = true ∨ sel = 0#8) (ha : f.usesA = true ∨ a = false) (himm : imm >>> f.immWidth = 0#32)
    (back : g (commandWord i.opcode sel a imm) = i) (wf : i.wf = true) : decode (encode i) = .ok i := by
  rw [spelled, decode_eq_ok_iff, opcField_commandWord]
  refine ⟨f, g, row, flgField_commandWord .., rsvField_commandWord .., ?_, by rw [back, wf], back⟩
  simp [Form.unusedZero, hsel, ha, himm]

/-- A word of an assigned opcode fails decode exactly if a check of R94 (b) to (e) catches it. -/
theorem decode_fails_iff_of_row {w : CommandWord} {f : Form} {g : CommandWord → Instr}
    (row : opcodeRow (opcField w).toNat = some (f, g)) :
    (∃ e, decode w = .error e) ↔
      ¬(zeroBits w 47 41 ∧ zeroBits w 39 32) ∨ f.unusedZero w = false ∨ (g w).wf = false := by
  have succeeds : (∃ i, decode w = .ok i) ↔
      (zeroBits w 47 41 ∧ zeroBits w 39 32) ∧ f.unusedZero w = true ∧ (g w).wf = true := by
    simp [decode_eq_ok_iff, row, and_assoc]
  have fails : (∃ e, decode w = .error e) ↔ ¬∃ i, decode w = .ok i := by cases decode w <;> simp
  rw [fails, succeeds, not_and_or, not_and_or (a := f.unusedZero w = true), Bool.not_eq_true, Bool.not_eq_true]

/-- Some unused bit is set (R94 (c)), by the part of the word it stands in. -/
theorem unusedZero_eq_false_iff (f : Form) (w : CommandWord) :
    f.unusedZero w = false ↔
      (¬f.usesSel = true ∧ ¬zeroBits w 55 48) ∨ (¬f.usesA = true ∧ ¬zeroBits w 40 40) ∨
        (f.immWidth = 0 ∧ ¬zeroBits w 31 0) ∨ (f.immWidth = 8 ∧ ¬zeroBits w 31 8) ∨
        (f.immWidth = 16 ∧ ¬zeroBits w 31 16) ∨ (f.immWidth = 24 ∧ ¬zeroBits w 31 24) := by
  have none_above : zeroBits w 31 32 := (zeroBits_iff w 31 32 (by omega)).2 (by omega)
  rw [← Bool.not_eq_true, unusedZero_iff, not_and_or, not_and_or, not_or, not_or]
  cases f <;> simp [Form.immWidth, none_above]

end Sys2Proof

namespace Sys2Proof.Proofs
open Sys2Proof.Machine

/-- Settles O3: the commands by form; each sets only what its form uses, and its row reads the operands back. -/
theorem decodeInvertsEncode : Obligations.DecodeInvertsEncode := by
  intro i wf
  cases i with
  | nop | clear | crc8Init | crc16Init | appendCrc16 | verifyCrc16 | split =>
    exact decode_encode_of_row rfl rfl (.inr rfl) (.inr rfl) rfl rfl wf
  | push b | crc8Update b | crc16Update b =>
    exact decode_encode_of_row rfl rfl (.inr rfl) (.inr rfl) (setWidth_shift_eq_zero b) (by simp) wf
  | readb x => exact decode_encode_of_row rfl rfl (.inr rfl) (.inr rfl) (setWidth_shift_eq_zero x) (by simp) wf
  | read r => exact decode_encode_of_row rfl rfl (.inl rfl) (.inr rfl) rfl (by simp) wf
  | setp k v =>
    exact decode_encode_of_row rfl rfl (.inl rfl) (.inr rfl) (BitVec.ushiftRight_eq_zero le_rfl) (by simp) wf
  | build id a c =>
    exact decode_encode_of_row rfl rfl (.inl rfl) (.inl rfl) (setWidth_shift_eq_zero c) (by simp) wf
  | buildTwist a | buildGimbal a | buildTouch a | buildBoot a =>
    exact decode_encode_of_row rfl rfl (.inr rfl) (.inl rfl) rfl (by simp) wf
  | buildLed a red green blue =>
    have himm : (0#8 ++ blue ++ green ++ red) >>> 24 = 0#32 :=
      colours_eq_setWidth red green blue ▸ setWidth_shift_eq_zero (blue ++ green ++ red)
    exact decode_encode_of_row rfl rfl (.inr rfl) (.inl rfl) himm (by simp) wf

/-- Settles O4: the row's command is spelled by the fields its form reads, and with the reserved and unused bits zero
these are the whole word. -/
theorem encodeInvertsDecode : Obligations.EncodeInvertsDecode := by
  intro w i h
  obtain ⟨f, g, row, flg, rsv, unused, wf, rfl⟩ := (decode_eq_ok_iff w i).1 h
  obtain ⟨sel, a, imm⟩ := spelled_of_unusedZero unused
  refine ⟨wf, ?_⟩
  rw [encode_of_row row, sel, a, imm, commandWord_of_fields w flg rsv]

/-- Settles O5: an unassigned opcode fails by R94 (a), and the row of an assigned one says which bits its form uses and
which operand has a range. -/
theorem decodeFailsExactlyOnTheFieldChecks : Obligations.DecodeFailsExactlyOnTheFieldChecks := by
  intro w
  have assigned := opcodeRow_isSome_iff (opcField w)
  cases row : opcodeRow (opcField w).toNat with
  | none =>
    rw [row] at assigned
    exact iff_of_true ⟨.unassignedOpcode, by rw [decode, row]⟩ (.inl (mt assigned.2 (by simp)))
  | some entry =>
    obtain ⟨f, g⟩ := entry
    have known := assigned.1 (by rw [row]; rfl)
    obtain ⟨sel, a, imm0, imm8, imm16, imm24⟩ := usedBits_of_row row
    rw [decode_fails_iff_of_row row, unusedZero_eq_false_iff, wf_eq_false_iff_of_row row, sel, a, imm0, imm8, imm16, imm24]
    simp only [or_assoc, not_not.2 known, false_or]

/-- Settles O2: the decoder is run on each word. -/
theorem wordsOfTheSpecDecode : Obligations.WordsOfTheSpecDecode := by
  unfold Obligations.WordsOfTheSpecDecode
  decide

/-- Settles O6: the step is `raiseError` on the state with the input taken, and that writes `STATUS.ERR` alone. -/
theorem undecodableWordRaisesIllegalOp : Obligations.UndecodableWordRaisesIllegalOp := by
  intro s w rest e hs hw
  exact ⟨_, decode_error_raises hw s rest hs, rfl, statusErr_setErr s.status .illegalOp, upper_setErr s.status .illegalOp,
    ⟨fun _ => rfl, rfl⟩, ⟨rfl, rfl, rfl⟩, ⟨rfl, rfl⟩, ⟨rfl, rfl, rfl⟩, ⟨rfl, rfl⟩, rfl, rfl⟩

end Sys2Proof.Proofs
end

section
/-! The checksum engine (spec/40_checksum.md R130 to R138): the words of the forms with neither `SEL` nor `A`, runs of
updates, the two trailer commands, and the statements built from them. -/

namespace Sys2Proof.Machine

/-! ### Words of a form that uses neither `SEL` nor `A` -/

/-- Where a form uses neither `SEL` nor `A`, the field checks leave only its operand's bits below the opcode (R92, R94). -/
theorem fieldChecks_iff_zeroBits {f : Form} (hsel : f.usesSel = false) (ha : f.usesA = false) (w : CommandWord) :
    (zeroBits w 47 41 ∧ zeroBits w 39 32 ∧ f.unusedZero w = true) ↔ zeroBits w 55 f.immWidth := by
  have himm : f.immWidth ≤ 32 := by cases f <;> decide
  have operand : (f.immWidth < 32 → zeroBits w 31 f.immWidth) ↔ zeroBits w 31 f.immWidth := by
    refine ⟨fun h => himm.lt_or_eq.elim h fun full => ?_, fun h _ => h⟩
    rw [full, zeroBits_iff w 31 32 (by omega)]
    omega
  rw [unusedZero_iff, hsel, ha, zeroBits_and_iff w 55 48 f.immWidth (by omega) (by omega),
    zeroBits_and_iff w 47 41 f.immWidth (by omega) (by omega), zeroBits_and_iff w 40 40 f.immWidth (by omega) (by omega),
    zeroBits_and_iff w 39 32 f.immWidth (by omega) (by omega), operand]
  simp only [show f.immWidth < 48 by omega, show f.immWidth < 41 by omega, show f.immWidth < 40 by omega]
  tauto

/-- Such a form spells its command in the words that are zero between the opcode and the operand. -/
theorem spelled_of_immForm {opc : Byte} {f : Form} {g : CommandWord → Instr} (row : opcodeRow opc.toNat = some (f, g))
    (hsel : f.usesSel = false) (ha : f.usesA = false) (wf : ∀ w, (g w).wf = true) :
    Spelled opc (zeroBits · 55 f.immWidth) g :=
  spelled_congr (spelled_of_row row) (fun w => by simp [← fieldChecks_iff_zeroBits hsel ha w, wf]) fun _ => rfl

/-- An opcode of form N spells its command in the one word that is zero below the opcode. -/
theorem spelled_of_formN {opc : Byte} {i : Instr} (row : opcodeRow opc.toNat = some (.n, fun _ => i))
    (wf : i.wf = true) : Spelled opc (zeroBits · 55 0) fun _ => i :=
  spelled_of_immForm row rfl rfl fun _ => wf

/-- An opcode of form B spells its command in the words that are zero between the opcode and the byte. -/
theorem spelled_of_formB {opc : Byte} {make : Byte → Instr}
    (row : opcodeRow opc.toNat = some (.b, fun w => make (immByte w))) (wf : ∀ b, (make b).wf = true) :
    Spelled opc (zeroBits · 55 8) fun w => make (w.extractLsb' 0 8) :=
  spelled_congr (spelled_of_immForm row rfl rfl fun _ => wf _) (fun _ => Iff.rfl) fun w => by
    rw [immByte, low_of_imm w 0 8 (by omega)]

/-! ### Runs of updates -/

/-- A command that advances a register by one step per byte, run over a sequence, folds the step over it. -/
theorem runCommands_map_foldl {α : Type} {make : Byte → Instr} {register : State → α} {advance : α → Byte → α}
    (one : ∀ b s, ∃ t, exec (make b) s = .next t ∧ register t = advance (register s) b) (bytes : List Byte) (s : State) :
    ∃ t, runCommands (bytes.map make) s = .next t ∧ register t = bytes.foldl advance (register s) := by
  induction bytes generalizing s with
  | nil => exact ⟨s, rfl, rfl⟩
  | cons b rest ih =>
    obtain ⟨m, hm, hstep⟩ := one b s
    obtain ⟨t, ht, hfold⟩ := ih m
    refine ⟨t, ?_, by rw [hfold, hstep, List.foldl_cons]⟩
    rw [List.map_cons, runCommands, hm]
    exact ht

theorem exec_crc8Update (b : Byte) (s : State) : exec (.crc8Update b) s =
    .next ({ s with acc8 := crc8Step s.acc8 b }.succeed (zext8 (crc8Step s.acc8 b))) := rfl

theorem exec_crc16Update (b : Byte) (s : State) : exec (.crc16Update b) s =
    .next ({ s with acc16 := crc16Step s.acc16 b }.succeed (zext16 (crc16Step s.acc16 b))) := rfl

/-! ### The CRC8 step (R133) -/

@[simp] theorem crc8Table_zero : crc8Table 0#8 = 0#8 := by decide

/-- A byte equal to the running value takes it to 0. -/
theorem crc8Step_self (a : Byte) : crc8Step a a = 0#8 := by rw [crc8Step, BitVec.xor_self, crc8Table_zero]

/-- The fixed points of the byte 0, over all 256 values. -/
theorem crc8Step_zero_eq_self_iff : ∀ a : Byte, crc8Step a 0#8 = a ↔ a = 0x00#8 ∨ a = 0xF7#8 := by decide +kernel

/-! ### The trailer commands (R136, R137) -/

/-- APPEND_CRC16 where two more bytes fit. -/
theorem exec_appendCrc16_of_fits {s : State} (h : s.obuf.length + 2 ≤ s.cap) : exec .appendCrc16 s =
    .next ({ s with obuf := s.obuf ++ trailer (crc16 s.obuf), acc16 := crc16 s.obuf }.succeed
      (zext16 (BitVec.ofNat 16 (s.obuf.length + 2)))) := by
  have happend : s.appendBytes (trailer (crc16 s.obuf)) = .ok { s with obuf := s.obuf ++ trailer (crc16 s.obuf) } := by
    rw [appendBytes_eq, trailer_length, if_pos h]
  rw [exec, execAppendCrc16, happend]
  simp [complete]

/-- APPEND_CRC16 where they do not. -/
theorem exec_appendCrc16_of_overflow {s : State} (h : s.cap < s.obuf.length + 2) :
    exec .appendCrc16 s = .next (s.raiseError .bufferOverflow) := by
  have happend : s.appendBytes (trailer (crc16 s.obuf)) = .error .bufferOverflow := by
    rw [appendBytes_eq, trailer_length, if_neg (by omega)]
  rw [exec, execAppendCrc16, happend]
  rfl

/-- VERIFY_CRC16 writes the outcome of its check to `STATUS.V` and answers it. -/
theorem exec_verifyCrc16 {s : State} {v : Bool} (h : verifies s.obuf = v) : exec .verifyCrc16 s =
    .next ({ s with status := setV s.status v }.succeed ((BitVec.ofBool v).setWidth 32)) := by
  subst h
  rfl

/-! ### What the check detects (R138) -/

/-- A buffer with its own trailer behind it verifies. -/
theorem verifies_append_trailer (m : Memory) : verifies (m ++ trailer (crc16 m)) = true := by
  rw [trailer, verifies_append, le16_lo8_hi8, beq_self_eq_true]

/-- The check asks for a CRC16 of 0 over the whole sequence, trailer included: the last two bytes take the CRC16 of the
others to 0 exactly if they are its own. -/
theorem verifies_iff_crc16_eq_zero {m : Memory} (h : 2 ≤ m.length) : verifies m = true ↔ crc16 m = 0#16 := by
  obtain ⟨head, lo, hi, rfl⟩ := exists_last_two h
  rw [verifies_append, beq_iff_eq, crc16_append]
  exact (crc16Step_two_eq_zero_iff (crc16 head) lo hi).symm

/-- What verifies has two bytes or more. -/
theorem two_le_length_of_verifies {m : Memory} (h : verifies m = true) : 2 ≤ m.length := by
  by_contra hlt
  rw [verifies_short (by omega)] at h
  contradiction

/-- Another byte at one index gives another CRC16: the step at that index tells the two bytes apart, and the steps behind
it keep the running values apart. -/
theorem crc16_set_ne {m : Memory} {i : Nat} {b : Byte} (hi : i < m.length) (hb : m[i] ≠ b) :
    crc16 (m.set i b) ≠ crc16 m := by
  have crc_at : ∀ x, crc16 (m.take i ++ x :: m.drop (i + 1)) =
      (m.drop (i + 1)).foldl crc16Step (crc16Step (crc16 (m.take i)) x) := fun x => by
    rw [crc16_append, List.foldl_cons]
  have new : m.set i b = m.take i ++ b :: m.drop (i + 1) := by rw [List.set_eq_take_append_cons_drop, if_pos hi]
  have old := crc_at m[i]
  rw [List.cons_getElem_drop_succ, List.take_append_drop] at old
  intro h
  rw [new, crc_at, old] at h
  exact hb (crc16Step_injective_right (crc16_fold_injective _ h)).symm

/-- A sequence that verifies does so no longer with another byte at one index. -/
theorem verifies_set_eq_false {m : Memory} {i : Nat} {b : Byte} (hm : verifies m = true) (hi : i < m.length)
    (hb : m[i] ≠ b) : verifies (m.set i b) = false := by
  have hlen := two_le_length_of_verifies hm
  have hzero := (verifies_iff_crc16_eq_zero hlen).1 hm
  rw [← Bool.not_eq_true, verifies_iff_crc16_eq_zero (by rwa [List.length_set]), ← hzero]
  exact crc16_set_ne hi hb

end Sys2Proof.Machine

namespace Sys2Proof.Proofs
open Sys2Proof.Machine

/-- Settles O24: the residue of a CRC16 with its own trailer behind it is 0, and of no other two bytes. -/
theorem verifyMeansResidueZero : Obligations.VerifyMeansResidueZero := fun _ => verifies_iff_crc16_eq_zero

/-- Settles O25: the changed byte changes the CRC16, so it is 0 no longer. -/
theorem singleByteChangesAreCaught : Obligations.SingleByteChangesAreCaught := by
  intro s i b hs hi hb
  rw [List.getElem?_eq_getElem hi, ne_eq, Option.some_inj] at hb
  exact exec_verifyCrc16 (verifies_set_eq_false hs hi hb)

/-- Settles O18: the command's meaning, and form N. -/
theorem crc8InitLoadsTheSeed : Obligations.Crc8InitLoadsTheSeed :=
  ⟨fun _ => rfl, spelled_of_formN rfl rfl⟩

/-- Settles O19: one update is one step, a run of updates the fold of it, and the form is B. -/
theorem crc8UpdateAdvancesByOneByte : Obligations.Crc8UpdateAdvancesByOneByte := by
  refine ⟨fun s b => exec_crc8Update b s, crc8Step_zero_eq_self_iff, crc8Step_self, fun s bytes hs => ?_,
    spelled_of_formB rfl fun _ => rfl⟩
  obtain ⟨t, ht, hfold⟩ := runCommands_map_foldl (register := State.acc8) (advance := crc8Step)
    (fun b s => ⟨_, exec_crc8Update b s, rfl⟩) bytes s
  exact ⟨t, ht, by rw [hfold, hs]; rfl⟩

/-- Settles O20: the command's meaning, and form N. -/
theorem crc16InitLoadsTheSeed : Obligations.Crc16InitLoadsTheSeed :=
  ⟨fun _ => rfl, spelled_of_formN rfl rfl⟩

/-- Settles O21: one update is one step, a run of updates the fold of it, and the form is B. -/
theorem crc16UpdateAdvancesByOneByte : Obligations.Crc16UpdateAdvancesByOneByte := by
  refine ⟨fun s b => ⟨crc16Step s.acc16 b, ?_, exec_crc16Update b s⟩, fun s bytes hs => ?_,
    spelled_of_formB rfl fun _ => rfl⟩
  · rw [BitVec.setWidth_eq_extractLsb' (by omega)]
    rfl
  · obtain ⟨t, ht, hfold⟩ := runCommands_map_foldl (register := State.acc16) (advance := crc16Step)
      (fun b s => ⟨_, exec_crc16Update b s, rfl⟩) bytes s
    exact ⟨t, ht, by rw [hfold, hs]; rfl⟩

/-- Settles O22: both sides of the capacity boundary, and form N. -/
theorem appendCrc16AppendsTheTrailer : Obligations.AppendCrc16AppendsTheTrailer :=
  ⟨fun _ => exec_appendCrc16_of_fits, fun _ => exec_appendCrc16_of_overflow, spelled_of_formN rfl rfl⟩

/-- Settles O23: the check by the length of the buffer, the fields `setV` keeps, and form N. -/
theorem verifyCrc16ChecksTheTrailer : Obligations.VerifyCrc16ChecksTheTrailer := by
  refine ⟨fun s head lo hi hs => ?_, fun s hs => exec_verifyCrc16 (verifies_short hs),
    fun st v => ⟨statusV_setV st v, statusErr_setV st v, statusReserved_setV st v⟩, spelled_of_formN rfl rfl⟩
  have hcheck : verifies s.obuf = (crc16 head == hi ++ lo) := by rw [hs, verifies_append, le16]
  exact ⟨fun h => exec_verifyCrc16 (hcheck.trans (beq_iff_eq.2 h)),
    fun h => exec_verifyCrc16 (hcheck.trans (beq_eq_false_iff_ne.2 h))⟩

/-- Settles O26: what APPEND_CRC16 leaves is the buffer with its own trailer behind it. -/
theorem appendThenVerifyHolds : Obligations.AppendThenVerifyHolds := fun s h =>
  ⟨_, _, exec_appendCrc16_of_fits h, exec_verifyCrc16 (verifies_append_trailer s.obuf), rfl, by simp⟩

end Sys2Proof.Proofs
end

section
/-! The bytes of a built command (spec/41_command_builder.md R163, R164, R171 to R174): one equation for each role, the
bits of a twist byte, and the statements about built bytes made of them. -/

namespace Sys2Proof.Machine

/-! ### The byte of each role (R163) -/

section Roles

variable {t : Template} {p : Option ParamSource} {i : Nat} (c : Half) (a : Byte)

theorem emittedByte_of_marker (h : i ∈ t.crc8) : emittedByte t c p a i = a := by
  simp only [emittedByte, roleAt, if_pos h]

theorem emittedByte_counterLow (h : 6 ∉ t.crc8) (hc : t.ctr = true) : emittedByte t c p a 6 = lo8 c := by
  simp [emittedByte, roleAt, h, hc, counterOffset]

theorem emittedByte_counterHigh (h : 7 ∉ t.crc8) (hc : t.ctr = true) : emittedByte t c p a 7 = hi8 c := by
  simp [emittedByte, roleAt, h, hc, counterOffset]

/-- Where no marker and no counter byte stands, the source and the tag decide. -/
theorem roleAt_of_unhidden (hm : i ∉ t.crc8) (hc : ¬(t.ctr = true ∧ (i = 6 ∨ i = 7))) (hasSource : Bool) :
    roleAt t hasSource i = if hasSource then (t.tagAt i).elim .literal .parameter else .literal := by
  have low : ¬(t.ctr = true ∧ i = counterOffset) := fun h => hc ⟨h.1, .inl h.2⟩
  have high : ¬(t.ctr = true ∧ i = counterOffset + 1) := fun h => hc ⟨h.1, .inr h.2⟩
  unfold roleAt
  rw [if_neg hm, if_neg low, if_neg high]
  cases hasSource <;> cases t.tagAt i <;> rfl

theorem emittedByte_of_tag {source : ParamSource} {tag : ParamTag} (hm : i ∉ t.crc8)
    (hc : ¬(t.ctr = true ∧ (i = 6 ∨ i = 7))) (ht : t.tagAt i = some tag) :
    emittedByte t c (some source) a i = source tag i := by
  simp [emittedByte, roleAt_of_unhidden hm hc, ht]

theorem emittedByte_literal (hm : i ∉ t.crc8) (hc : ¬(t.ctr = true ∧ (i = 6 ∨ i = 7)))
    (h : p = none ∨ t.tagAt i = none) : emittedByte t c p a i = literalAt t i := by
  obtain rfl | h := h
  · simp [emittedByte, roleAt_of_unhidden hm hc]
  · simp [emittedByte, roleAt_of_unhidden hm hc, h]

end Roles

/-- A tagged offset that no marker and no counter byte hides carries the source's byte (R163). -/
theorem buildCmd_get_of_tag {t : Template} {i : Nat} {tag : ParamTag} (c : Half) (source : ParamSource)
    (hi : i < t.bodyLen) (hm : i ∉ t.crc8) (h6 : i ≠ 6) (h7 : i ≠ 7) (ht : t.tagAt i = some tag) :
    (buildCmd t c (some source)).bytes[i]? = some (source tag i) := by
  rw [buildCmd_get _ _ _ hi, emittedByte_of_tag _ _ hm (fun h => h.2.elim h6 h7) ht]

/-! ### The bits of a twist byte (R171) -/

/-- No two slices of an offset cover the same bit (L1). -/
theorem slice_eq_of_covers {slices : List Slice} {j : Nat} (disjoint : slices.Pairwise fun a b => a.mask &&& b.mask = 0#8)
    {a b : Slice} (ha : a ∈ slices) (hb : b ∈ slices) (hja : a.mask.getLsbD j = true) (hjb : b.mask.getLsbD j = true) :
    a = b := by
  by_contra hne
  have : Std.Symm fun a b : Slice => a.mask &&& b.mask = 0#8 := ⟨fun x y h => by rwa [BitVec.and_comm]⟩
  have hand := disjoint.forall ha hb hne
  have := congrArg (·.getLsbD j) hand
  simp [hja, hjb] at this

/-- A slice puts nothing outside its mask. -/
theorem sliceBits_bit_of_not_mask (v : TwistValues) {s : Slice} (h : s.dst + s.width ≤ 8) {j : Nat} (hj : j < 8)
    (hm : s.mask.getLsbD j = false) : (sliceBits v s).getLsbD j = false := by
  rw [sliceBits_bit v s h hj, ← mask_bit s h, hm, Bool.false_and]

/-- The bits of a twist byte: the literal bit where no mask of the offset covers, and the or of the slices. -/
theorem twistSource_bit (c : Config) (t : Template) (v : TwistValues) (tag : ParamTag) (i : Nat) {j : Nat} (hj : j < 8) :
    (twistSource c t v tag i).getLsbD j =
      (((literalAt t i).getLsbD j && !(slicesAt c i).any (·.mask.getLsbD j)) ||
        (slicesAt c i).any fun s => (sliceBits v s).getLsbD j) := by
  simp only [twistSource, BitVec.getLsbD_or, BitVec.getLsbD_and, BitVec.getLsbD_not, orAll_bit, List.any_map, hj,
    decide_true, Bool.true_and, Function.comp_def]

/-- A bit that no slice of the offset covers is the template's. -/
theorem twistSource_bit_of_uncovered {c : Config} {i j : Nat} (t : Template) (v : TwistValues) (tag : ParamTag)
    (inByte : ∀ s ∈ slicesAt c i, s.dst + s.width ≤ 8) (hj : j < 8)
    (free : ∀ s ∈ slicesAt c i, s.mask.getLsbD j = false) :
    (twistSource c t v tag i).getLsbD j = (literalAt t i).getLsbD j := by
  have masks : ((slicesAt c i).any fun s => s.mask.getLsbD j) = false := List.any_eq_false.2 (by simpa using free)
  have bits : ((slicesAt c i).any fun s => (sliceBits v s).getLsbD j) = false :=
    List.any_eq_false.2 fun s hs => by simp [sliceBits_bit_of_not_mask v (inByte s hs) hj (free s hs)]
  simp [twistSource_bit c t v tag i hj, masks, bits]

/-- A bit that a slice covers is that slice's, since no other slice of the offset covers it. -/
theorem twistSource_bit_of_covered {c : Config} {i j : Nat} (t : Template) (v : TwistValues) (tag : ParamTag) {s : Slice}
    (inByte : ∀ s ∈ slicesAt c i, s.dst + s.width ≤ 8)
    (disjoint : (slicesAt c i).Pairwise fun a b => a.mask &&& b.mask = 0#8) (hj : j < 8) (hs : s ∈ slicesAt c i)
    (cover : s.mask.getLsbD j = true) : (twistSource c t v tag i).getLsbD j = (sliceBits v s).getLsbD j := by
  have masks : ((slicesAt c i).any fun s => s.mask.getLsbD j) = true := List.any_eq_true.2 ⟨s, hs, cover⟩
  have bits : ((slicesAt c i).any fun s => (sliceBits v s).getLsbD j) = (sliceBits v s).getLsbD j := by
    rw [Bool.eq_iff_iff, List.any_eq_true]
    refine ⟨fun ⟨r, hr, hbit⟩ => ?_, fun hbit => ⟨s, hs, hbit⟩⟩
    have : r.mask.getLsbD j = true := by
      by_contra hmask
      rw [sliceBits_bit_of_not_mask v (inByte r hr) hj (by simpa using hmask)] at hbit
      contradiction
    rwa [← slice_eq_of_covers disjoint hr hs this cover]
  simp [twistSource_bit c t v tag i hj, masks, bits]

/-! ### The twist layout of an admitted configuration -/

section Twist

variable {c : AdmittedConfig} {t : Template} {i : Nat} {slices : List Slice}

/-- The slices of an offset are the layout's entry, an offset standing once in it (R171). -/
theorem slicesAt_eq (h : (i, slices) ∈ c.val.twistLayout) : slicesAt c.val i = slices := by
  rw [slicesAt, lookup_of_mem (checks c).slices.1 h, Option.getD_some]

/-- The slices of an offset lie in the byte and do not overlap (R171, L1). -/
theorem slices_of_entry (h : (i, slices) ∈ c.val.twistLayout) :
    (∀ s ∈ slices, s.dst + s.width ≤ 8) ∧ slices.Pairwise fun a b => a.mask &&& b.mask = 0#8 := by
  refine ⟨fun s hs => ?_, (checks c).l1 _ h⟩
  have mem : s ∈ c.val.slices := List.mem_flatten.2 ⟨slices, List.mem_map.2 ⟨_, h, rfl⟩, hs⟩
  exact ((checks c).slices.2 s mem).2.2

/-- At a twist offset the twist command carries the source's byte over a literal byte of the body (W5, L3). -/
theorem twistCommand_get (ht : c.val.templates[c.val.twistId]? = some t) (h : (i, slices) ∈ c.val.twistLayout) (k : Half)
    (v : TwistValues) :
    (buildCmd t k (some (twistSource c.val t v))).bytes[i]? = some (twistSource c.val t v .twist i) ∧
      t.body[i]? = some (literalAt t i) := by
  have offset : i ∈ c.val.twistOffsets := List.mem_map.2 ⟨_, h, rfl⟩
  obtain ⟨hi, hm, h6, h7⟩ := (checks c).l3 t ht i offset
  refine ⟨buildCmd_get_of_tag k _ hi hm h6 h7 (((checks c).w5 t ht).2 i offset), ?_⟩
  obtain ⟨-, hbody, -⟩ := (checks c).shape t (List.mem_of_getElem? ht)
  have hlt : i < t.body.length := hbody ▸ hi
  simp [literalAt, List.getElem?_eq_getElem hlt]

/-- Bit `s + k` of a slice's field stands at bit `d + k` of its offset's byte (R171). -/
theorem twistSource_carries (h : (i, slices) ∈ c.val.twistLayout) (v : TwistValues) {s : Slice} (hs : s ∈ slices) {k : Nat}
    (hk : k < s.width) :
    (twistSource c.val t v .twist i).getLsbD (s.dst + k) = (v.get s.field).getLsbD (s.src + k) := by
  obtain ⟨inByte, disjoint⟩ := slices_of_entry h
  have hwidth := inByte s hs
  have cover : s.mask.getLsbD (s.dst + k) = true := by simp [mask_bit s hwidth, hk]
  rw [← slicesAt_eq h] at inByte disjoint hs
  rw [twistSource_bit_of_covered t v .twist inByte disjoint (by omega) hs cover, sliceBits_bit v s hwidth (by omega)]
  simp [hk]

/-- Every bit of every field is carried by a slice of some entry (L2). -/
theorem exists_slice_of_field_bit (c : AdmittedConfig) (f : TwistField) {b : Nat} (hb : b < 11) :
    ∃ i slices s, (i, slices) ∈ c.val.twistLayout ∧ s ∈ slices ∧ s.field = f ∧ s.src ≤ b ∧ b < s.src + s.width := by
  have once := (checks c).l2 f (by cases f <;> simp) b hb
  obtain ⟨s, hs, carries⟩ := List.countP_pos_iff.1 (show 0 < c.val.slices.countP fun s => s.carries f b by omega)
  obtain ⟨l, hl, hsl⟩ := List.mem_flatten.1 hs
  obtain ⟨⟨i, slices⟩, hentry, rfl⟩ := List.mem_map.1 hl
  simp only [Slice.carries, Bool.and_eq_true, beq_iff_eq, decide_eq_true_eq] at carries
  obtain ⟨⟨hf, hlo⟩, hhi⟩ := carries
  exact ⟨i, slices, s, hentry, hsl, hf, hlo, hhi⟩

end Twist

/-- The three fields are the whole of the twist values. -/
theorem twistValues_ext {v u : TwistValues} (h : ∀ f, v.get f = u.get f) : v = u := by
  obtain ⟨x, y, z⟩ := v
  obtain ⟨x', y', z'⟩ := u
  obtain rfl : x = x' := h .x
  obtain rfl : y = y' := h .y
  obtain rfl : z = z' := h .z
  rfl

/-- A tag of an admitted template lies in its body and is the one its offset looks up (R60, W3), so that its byte is the
source's where nothing hides it. -/
theorem buildCmd_get_of_param (c : AdmittedConfig) {id i : Nat} {t : Template} {tag : ParamTag}
    (ht : c.val.templates[id]? = some t) (h : (i, tag) ∈ t.param) (hm : i ∉ t.crc8) (h6 : i ≠ 6) (h7 : i ≠ 7) (k : Half)
    (source : ParamSource) : (buildCmd t k (some source)).bytes[i]? = some (source tag i) := by
  have mem := List.mem_of_getElem? ht
  obtain ⟨-, -, -, distinct⟩ := (checks c).shape t mem
  exact buildCmd_get_of_tag k source (((checks c).w3 t mem).2 _ h) hm h6 h7 (lookup_of_mem distinct h)

end Sys2Proof.Machine

namespace Sys2Proof.Proofs
open Sys2Proof.Machine

/-- Settles O36: a covered bit is its slice's alone (L1), and no other role hides a twist offset (L3). -/
theorem twistBytesCarryTheSlices : Obligations.TwistBytesCarryTheSlices := by
  intro c t k v i slices ht h
  obtain ⟨hb, hx⟩ := twistCommand_get ht h k v
  refine ⟨_, _, hb, hx, fun s hs j hj => twistSource_carries h v hs hj, fun j hj free => ?_⟩
  have inByte := (slices_of_entry h).1
  refine twistSource_bit_of_uncovered t v .twist (by rwa [slicesAt_eq h]) hj ?_
  rw [slicesAt_eq h]
  intro s hs
  rw [mask_bit s (inByte s hs), ← Bool.decide_and, decide_eq_false (free s hs)]

/-- Settles O37: every field bit stands in a slice (L2), so equal bytes have equal field bits. -/
theorem twistCommandDeterminesItsFields : Obligations.TwistCommandDeterminesItsFields := by
  intro c t k v u ht hbytes
  refine twistValues_ext fun f => BitVec.eq_of_getLsbD_eq fun b hb => ?_
  obtain ⟨i, slices, s, hentry, hs, rfl, hlo, hhi⟩ := exists_slice_of_field_bit c f hb
  have same : twistSource c.val t v .twist i = twistSource c.val t u .twist i := by
    have hget := congrArg (·[i]?) hbytes
    rwa [(twistCommand_get ht hentry k v).1, (twistCommand_get ht hentry k u).1, Option.some_inj] at hget
  have carried (w : TwistValues) := twistSource_carries (t := t) hentry w hs (k := b - s.src) (by omega)
  rw [← Nat.add_sub_cancel' hlo, ← carried v, same, carried u]

/-- Settles O27: the byte of each role, in the order of R163. -/
theorem builtBytesFollowTheRoles : Obligations.BuiltBytesFollowTheRoles := by
  intro t c p i hi
  refine ⟨_, buildCmd_get t c p hi, emittedByte_of_marker c _, ?_, ?_, fun hm hc => ⟨?_, ?_⟩⟩
  · rintro hm hctr rfl
    exact emittedByte_counterLow c _ hm hctr
  · rintro hm hctr rfl
    exact emittedByte_counterHigh c _ hm hctr
  · rintro source tag rfl ht
    exact emittedByte_of_tag c _ hm hc ht
  · intro h x hx
    rw [emittedByte_literal c _ hm hc h, literalAt, List.getD_eq_getElem?_getD, hx, Option.getD_some]

/-- Settles O28: the body is what the walk emits. -/
theorem builtCommandEndsInItsCrc16 : Obligations.BuiltCommandEndsInItsCrc16 := by
  intro t c p
  refine ⟨(walk t c p t.bodyLen).1, walk_length t c p _, ?_, ?_, ?_, buildCmd_length t c p⟩ <;> rw [buildCmd_eq]
  rfl

/-- Settles O38: a tag of either template is one of its own (W6, W7), and its source gives that tag's byte. -/
theorem gimbalAndLedBytesStandAtTheirTags : Obligations.GimbalAndLedBytesStandAtTheirTags := by
  constructor
  · intro c t k pitch yaw i tag ht h hm h6 h7
    refine ⟨_, buildCmd_get_of_param c ht h hm h6 h7 k _, ?_⟩
    have own : tag ∈ [ParamTag.pitchLo, .pitchHi, .yawLo, .yawHi] :=
      ((checks c).w6 t ht).subset (List.mem_map.2 ⟨_, h, rfl⟩)
    cases tag <;> simp [gimbalSource, lo8, hi8] at own ⊢
  · intro c t k col i tag ht h hm h6 h7
    refine ⟨_, buildCmd_get_of_param c ht h hm h6 h7 k _, ?_⟩
    have own : tag ∈ [ParamTag.red, .green, .blue] := ((checks c).w7 t ht).subset (List.mem_map.2 ⟨_, h, rfl⟩)
    cases tag <;> simp [ledSource] at own ⊢

end Sys2Proof.Proofs
end

section
/-! The quantisers (spec/41_command_builder.md R168 to R170): what they answer for a finite pattern, in the rounding of
Laws/Quantise.lean, and the two formulas over the rationals. -/

namespace Sys2Proof.Machine

variable {p : Word}

/-- `round((a * u + b * d) / d)` is `round(a * v + b)` for the value `v = u / d` (R11). -/
theorem roundDiv_affine (a b : ℤ) {u : ℤ} {v : ℚ} (h : (u : ℚ) / unitsPerOne = v) :
    roundDiv (a * u + b * unitsPerOne) unitsPerOne = roundRat (a * v + b) := by
  have positive : 0 < unitsPerOne := by rw [unitsPerOne]; positivity
  have nonzero : (unitsPerOne : ℚ) ≠ 0 := Nat.cast_ne_zero.2 positive.ne'
  rw [roundDiv_eq_roundRat _ positive, ← h]
  congr 1
  push_cast
  field_simp

/-- `Q11` of a finite pattern with the value `u / 2^149` (R168). -/
theorem q11_of_finite {u : ℤ} {v : ℚ} (free : BitVec 11) (hp : binary32 p = .finite u) (hv : (u : ℚ) / unitsPerOne = v) :
    ((q11 free p).toNat : ℤ) = max 0 (min 2047 (roundRat (256 * v + 1024))) := by
  have rounded : roundDiv (256 * u + 1024 * unitsPerOne) unitsPerOne = roundRat (256 * v + 1024) := by
    exact_mod_cast roundDiv_affine 256 1024 hv
  simp only [q11, hp]
  rw [rounded, clamp_eq _ _ _ (by omega), BitVec.toNat_ofInt]
  omega

/-- `Q16` of a finite pattern with the value `u / 2^149` (R169). -/
theorem q16_of_finite {u : ℤ} {v : ℚ} (free : Half) (hp : binary32 p = .finite u) (hv : (u : ℚ) / unitsPerOne = v) :
    q16 free p = if roundRat (-1024 * v) < -32768 ∨ 32767 < roundRat (-1024 * v) then free
      else BitVec.ofInt 16 (roundRat (-1024 * v)) := by
  have rounded : roundDiv (-1024 * u) unitsPerOne = roundRat (-1024 * v) := by
    simpa using roundDiv_affine (-1024) 0 hv
  simp only [q16, hp]
  rw [rounded]

theorem binary32_inf (he : expField p = 255) (hm : fracField p = 0) : binary32 p = .inf (p.getLsbD 31) := by
  rw [binary32, if_pos he, if_pos hm]

theorem binary32_nan (he : expField p = 255) (hm : fracField p ≠ 0) : binary32 p = .nan := by
  rw [binary32, if_pos he, if_neg hm]

end Sys2Proof.Machine

namespace Sys2Proof.Proofs
open Sys2Proof.Machine

/-- Settles O42: the units of `2^-149` stand for the value of R170, and their rounding for the formula's. -/
theorem twistQuantiserIsTheFormula : Obligations.TwistQuantiserIsTheFormula := by
  rintro p free e m v rfl rfl rfl
  refine ⟨fun he => ?_, fun he hm => ?_, fun he hm => ?_⟩
  · obtain ⟨u, hp, hv⟩ := binary32_finite p he
    exact q11_of_finite free hp hv
  · rw [q11, binary32_inf he hm]
  · rw [q11, binary32_nan he hm]

/-- Settles O43: as O42, with two's complement exact on the 16-bit range. -/
theorem gimbalQuantiserIsTheFormula : Obligations.GimbalQuantiserIsTheFormula := by
  rintro p free e m r n rfl rfl hr hn
  have rounded : n = roundRat (-1024 * r) := hn
  obtain he | he := eq_or_ne (expField p) 255
  · refine ⟨absurd he, absurd he, fun _ => ?_⟩
    obtain hm | hm := eq_or_ne (fracField p) 0
    · rw [q16, binary32_inf he hm]
    · rw [q16, binary32_nan he hm]
  · obtain ⟨u, hp, hv⟩ := binary32_finite p he
    have quantised := q16_of_finite free hp (hv.trans hr.symm)
    rw [← rounded] at quantised
    refine ⟨fun _ hlo hhi => ?_, fun _ hout => by rw [quantised, if_pos hout], fun h => absurd h he⟩
    rw [quantised, if_neg (by omega), BitVec.toInt_ofInt]
    exact Int.bmod_eq_of_le (by omega) (by omega)

end Sys2Proof.Proofs
end

section
/-! The build commands (spec/41_command_builder.md R180 to R187): the words of the forms with an append flag,
what a build with `A = 0` does in every state, and the statements about builds made of them. -/

namespace Sys2Proof.Machine

/-! ### Words of a form that uses `A` (R92, R94) -/

/-- Two runs of zero bits next to each other are one. -/
theorem zeroBits_join (w : CommandWord) {hi mid lo : Nat} (h1 : lo ≤ mid + 1) (h2 : mid ≤ hi) :
    (zeroBits w hi (mid + 1) ∧ zeroBits w mid lo) ↔ zeroBits w hi lo := by
  rw [zeroBits_and_iff w hi (mid + 1) lo h1 (by omega), Nat.add_sub_cancel]
  refine and_congr_right fun _ => ⟨fun h _ => h, fun h => h1.lt_or_eq.elim h fun empty => ?_⟩
  rw [empty, zeroBits_iff w mid (mid + 1) le_rfl]
  omega

/-- Where a form uses `A`, the field checks leave `A`, its operand's bits and, if it uses it, `SEL`. -/
theorem fieldChecks_of_usesA {f : Form} (ha : f.usesA = true) (w : CommandWord) :
    (zeroBits w 47 41 ∧ zeroBits w 39 32 ∧ f.unusedZero w = true) ↔
      (f.usesSel = true ∨ zeroBits w 55 48) ∧ zeroBits w 47 41 ∧ zeroBits w 39 f.immWidth := by
  have himm : f.immWidth ≤ 31 + 1 := by cases f <;> decide
  rw [unusedZero_iff, ← zeroBits_join w himm (show 31 ≤ 39 by omega)]
  simp only [ha, true_or, true_and]
  tauto

/-- A form with `A` but without `SEL` spells its command in the words that are zero between the opcode and `A` and
between `A` and the operand. -/
theorem spelled_of_flagForm {opc : Byte} {f : Form} {g : CommandWord → Instr} (row : opcodeRow opc.toNat = some (f, g))
    (hsel : f.usesSel = false) (ha : f.usesA = true) (wf : ∀ w, (g w).wf = true) :
    Spelled opc (fun w => zeroBits w 55 41 ∧ zeroBits w 39 f.immWidth) g := by
  refine spelled_congr (spelled_of_row row) (fun w => ?_) fun _ => rfl
  have fields := fieldChecks_of_usesA ha w
  rw [hsel, ← and_assoc (b := zeroBits w 47 41), or_iff_right Bool.false_ne_true,
    zeroBits_join w (show 41 ≤ 47 + 1 by omega) (show 47 ≤ 55 by omega)] at fields
  simp [← fields, wf]

/-- An opcode of form AF spells its command in the words that are zero but for the opcode and `A`. -/
theorem spelled_of_formAF {opc : Byte} {make : Bool → Instr}
    (row : opcodeRow opc.toNat = some (.af, fun w => make (aFlag w))) (wf : ∀ a, (make a).wf = true) :
    Spelled opc (fun w => zeroBits w 55 41 ∧ zeroBits w 39 0) fun w => make (w.getLsbD 40) :=
  spelled_of_flagForm row rfl rfl fun _ => wf _

/-- The words of BUILD, form T. -/
theorem spelled_build : Spelled 0x20#8 (fun w => zeroBits w 47 41 ∧ zeroBits w 39 16) fun w =>
    .build (w.extractLsb' 48 8) (w.getLsbD 40) (w.extractLsb' 0 16) := by
  refine spelled_congr (spelled_of_row (f := .t) rfl) (fun w => ?_) fun w => ?_
  · have fields := fieldChecks_of_usesA (f := .t) rfl w
    simpa [Form.usesSel, Form.immWidth, Instr.wf] using fields
  · rw [immHalf, low_of_imm w 0 16 (by omega)]
    rfl

/-- The words of BUILD_LED, form AC. -/
theorem spelled_buildLed : Spelled 0x23#8 (fun w => zeroBits w 55 41 ∧ zeroBits w 39 24) fun w =>
    .buildLed (w.getLsbD 40) (w.extractLsb' 0 8) (w.extractLsb' 8 8) (w.extractLsb' 16 8) := by
  refine spelled_congr (spelled_of_flagForm (f := .ac) rfl rfl rfl fun _ => rfl) (fun _ => Iff.rfl) fun w => ?_
  rw [immByte, immGreen, immBlue, low_of_imm w 0 8 (by omega), low_of_imm w 8 8 (by omega), low_of_imm w 16 8 (by omega)]
  rfl

/-! ### The touch command (R104, R184) -/

/-- BUILD_TOUCH's bytes, and its two answers. -/
theorem execBuildTouch_eq (s : State) (a : Bool) :
    ∃ body bytes, body = touchBody s.config.val s.ctrJoy ∧ bytes = body ++ trailer (crc16 body) ∧
      bytes.length = 10 + s.config.val.touchB.length ∧
      (s.fits a bytes.length → execBuildTouch a s =
        .next ({ s.placed a bytes with acc16 := crc16 body, ctrJoy := s.ctrJoy + 1#16 }.succeed
          (zext16 (s.placed a bytes).olen))) ∧
      (¬s.fits a bytes.length → execBuildTouch a s = .next (s.raiseError .bufferOverflow)) := by
  refine ⟨_, _, rfl, rfl, ?_, fun hf => ?_, fun hf => ?_⟩
  · rw [List.length_append, touchBody_length, trailer_length]
    omega
  · simp only [execBuildTouch, (place_eq s a _).1 hf]
    rfl
  · simp only [execBuildTouch, (place_eq s a _).2 hf]
    rfl

/-- The touch command in two frames: the first array whole, and what is left. -/
theorem splitBytes_two {first rest : List Byte} (hfirst : first.length = 8) (hpos : rest ≠ []) (hrest : rest.length ≤ 8) :
    splitBytes (first ++ rest) = [first, rest] := by
  rw [splitBytes_cons (by simp [hpos]), ← hfirst, List.take_left, List.drop_left, splitBytes_cons hpos,
    List.take_of_length_le hrest, List.drop_eq_nil_of_le hrest, splitBytes_nil]

/-! ### Builds with `A = 0` (R165, R187) -/

/-- The builds with `A = 0`, as R187 (e) speaks of them. -/
def ReplacingBuild (i : Instr) : Prop :=
  (∃ id c, i = .build id false c) ∨ i = .buildTwist false ∨ i = .buildGimbal false ∨
    (∃ r g b, i = .buildLed false r g b) ∨ i = .buildTouch false ∨ i = .buildBoot false

/-- Bytes within the capacity fit in place of the contents (R165). -/
theorem fits_replacing {s : State} {n : Nat} (h : n ≤ s.config.val.obufCap) : s.fits false n := by
  simpa [State.fits] using h

/-- The boot sequence has `BOOT_LEN` bytes (R186). -/
theorem bootSequence_length (c : AdmittedConfig) {t : Template} (ht : c.val.templates[c.val.ledId]? = some t) (k : Half)
    (p : Option ParamSource) :
    ((c.val.bootIds.map fun id => (buildCmd (templateOf c.val id) 0#16 none).bytes).flatten ++
      (buildCmd t k p).bytes).length = c.val.bootLen := by
  have each : ∀ id ∈ c.val.bootIds, (buildCmd (templateOf c.val id) 0#16 none).bytes.length = c.val.lenOf id := by
    intro id hid
    obtain ⟨u, hu⟩ := template_present c (bootIds_present c hid)
    rw [templateOf, Config.lenOf, Config.template?, hu]
    exact buildCmd_length u 0#16 none (len_bounds c hu).1
  have last : (buildCmd t k p).bytes.length = c.val.lenOf c.val.ledId := by
    rw [Config.lenOf, Config.template?, ht]
    exact buildCmd_length t k p (len_bounds c ht).1
  rw [List.length_append, List.length_flatten, List.map_map, last, Config.bootLen,
    ← List.map_congr_left each]
  rfl

/-- A template build's bytes verify (R187 (c)). -/
theorem verifies_buildCmd (t : Template) (c : Half) (p : Option ParamSource) :
    verifies (buildCmd t c p).bytes = true := by
  rw [buildCmd_eq]
  exact verifies_append_trailer _

/-- One command built in place of the contents leaves a buffer that verifies (R187 (c)). -/
theorem Effect.verifies_of_replacing_build {s u : State} {i : Instr} {d : Word} (h : Effect s i u d)
    (hi : (∃ id c, i = .build id false c) ∨ i = .buildTwist false ∨ i = .buildGimbal false ∨
      (∃ r g b, i = .buildLed false r g b) ∨ i = .buildTouch false) : verifies u.obuf = true := by
  obtain ⟨id, c, rfl⟩ | rfl | rfl | ⟨r, g, b, rfl⟩ | rfl := hi
  · cases h
    exact verifies_buildCmd ..
  · cases h with
    | buildTwist _ t b present fits built => exact built ▸ verifies_buildCmd ..
  · cases h with
    | buildGimbal _ t b present fits built => exact built ▸ verifies_buildCmd ..
  · cases h with
    | buildLed _ _ _ _ t b present fits built => exact built ▸ verifies_buildCmd ..
  · cases h
    exact verifies_append_trailer _

/-- The effects of one replacing build in two states that agree on the configuration, the counters, `PARAM` and the draws
agree on all that the build writes (R187 (e)). -/
theorem Effect.agree_of_replacing_build {s₁ s₂ u₁ u₂ : State} {i : Instr} {d₁ d₂ : Word} (config : s₁.config = s₂.config)
    (counters : sameCounters s₁ s₂) (params : sameParams s₁ s₂) (draws : s₁.draws = s₂.draws)
    (hi : ReplacingBuild i) (h₁ : Effect s₁ i u₁ d₁) (h₂ : Effect s₂ i u₂ d₂) :
    d₁ = d₂ ∧ sameCounters u₁ u₂ ∧ u₁.obuf = u₂.obuf ∧ u₁.acc16 = u₂.acc16 ∧
      (i ≠ .buildTouch false → u₁.acc8 = u₂.acc8) := by
  obtain ⟨joy, led, gimbal⟩ := counters
  obtain ⟨p0, p1, p2⟩ := params
  have values : s₁.twistValues = s₂.twistValues := by simp only [State.twistValues, draws, p0, p1, p2]
  have pitch : s₁.pitch = s₂.pitch := by simp only [State.pitch, draws, p0]
  have yaw : s₁.yaw = s₂.yaw := by simp only [State.yaw, draws, p1]
  obtain ⟨id, c, rfl⟩ | rfl | rfl | ⟨r, g, b, rfl⟩ | rfl | rfl := hi
  -- In each case both effects name the template of one identifier, built from one counter and one source.
  all_goals
    cases h₁
    cases h₂
    simp_all [sameCounters]

end Sys2Proof.Machine

namespace Sys2Proof.Proofs
open Sys2Proof.Machine

/-- Settles O29: the template build by its cases, and form T. -/
theorem buildBuildsAnyTemplate : Obligations.BuildBuildsAnyTemplate := by
  refine ⟨fun s id a c t ht hf => ?_, fun s id a c t ht hf => ?_, fun s id a c h => ?_, fun c id t ht hlen => ?_,
    spelled_build⟩
  · rw [exec, execBuild, (templateBuild_eq s id.toNat a c fun _ => none).1 t ht hf]
    rfl
  · rw [exec, execBuild, (templateBuild_eq s id.toNat a c fun _ => none).2.1 t ht hf]
    rfl
  · rw [exec, execBuild, (templateBuild_eq s id.toNat a c fun _ => none).2.2 h]
    rfl
  · simp only [lookup, Config.template?, ht, if_pos hlen]

/-- Settles O30: the template build of the twist template, which is present, and form AF. -/
theorem buildTwistBuildsFromTheParameters : Obligations.BuildTwistBuildsFromTheParameters := by
  refine ⟨fun s a => ?_, spelled_of_formAF rfl fun _ => rfl⟩
  obtain ⟨t, ht⟩ := twist_present s.config
  obtain ⟨fitting, overflowing, -⟩ := templateBuild_eq s s.config.val.twistId a s.ctrJoy
    fun t => some (twistSource s.config.val t s.twistValues)
  refine ⟨t, s.twistValues, ht, rfl, fun hf => ⟨_, rfl, ?_⟩, fun hf => ?_⟩
  · rw [exec, execBuildTwist, fitting t ht hf]
    rfl
  · rw [exec, execBuildTwist, overflowing t ht hf]
    rfl

/-- Settles O31: the template build of the gimbal template, which is present, and form AF. -/
theorem buildGimbalBuildsFromTheParameters : Obligations.BuildGimbalBuildsFromTheParameters := by
  refine ⟨fun s a => ?_, spelled_of_formAF rfl fun _ => rfl⟩
  obtain ⟨t, ht⟩ := gimbal_present s.config
  obtain ⟨fitting, overflowing, -⟩ := templateBuild_eq s s.config.val.gimbalId a s.ctrGimbal
    fun t => some (gimbalSource t s.pitch s.yaw)
  refine ⟨t, s.pitch, s.yaw, ht, rfl, rfl, fun hf => ⟨_, rfl, ?_⟩, fun hf => ?_⟩
  · rw [exec, execBuildGimbal, fitting t ht hf]
    rfl
  · rw [exec, execBuildGimbal, overflowing t ht hf]
    rfl

/-- Settles O32: the template build of the LED template, which is present, and form AC. -/
theorem buildLedBuildsTheColour : Obligations.BuildLedBuildsTheColour := by
  refine ⟨fun s a red green blue => ?_, spelled_buildLed⟩
  obtain ⟨t, ht⟩ := led_present s.config
  obtain ⟨fitting, overflowing, -⟩ := templateBuild_eq s s.config.val.ledId a s.ctrLed
    fun t => some (ledSource t ⟨red, green, blue⟩)
  refine ⟨t, ht, fun hf => ⟨_, rfl, ?_⟩, fun hf => ?_⟩
  · rw [exec, execBuildLed, fitting t ht hf]
    rfl
  · rw [exec, execBuildLed, overflowing t ht hf]
    rfl

/-- Settles O33: `TOUCH_A` has eight bytes and `TOUCH_B` at most six, so the command is a whole frame and a rest of two to
eight bytes. -/
theorem buildTouchBuildsBothArrays : Obligations.BuildTouchBuildsBothArrays := by
  refine ⟨fun s a => ?_, spelled_of_formAF rfl fun _ => rfl⟩
  obtain ⟨ha, hb, -⟩ := (checks s.config).ranges
  obtain ⟨body, bytes, hbody, hbytes, hlen, fitting, overflowing⟩ := execBuildTouch_eq s a
  rw [touchBody, touchHead_eq] at hbody
  refine ⟨s.config.val.touchA.take 6, s.config.val.touchA.drop 6, (List.take_append_drop 6 _).symm, by simp [ha],
    by simp [ha], _, rfl, body, hbody, _, rfl, bytes, hbytes, hlen, ?_, fitting, overflowing⟩
  rw [hbytes, hbody, List.append_assoc]
  exact splitBytes_two (by simp [ha]) (by simp [trailer]) (by simpa using hb)

/-- Settles O34: the boot range is `bootFirst` to `bootLast`, counted from 0, and the form is AF. -/
theorem buildBootBuildsTheSequence : Obligations.BuildBootBuildsTheSequence := by
  refine ⟨fun s a => ?_, spelled_of_formAF rfl fun _ => rfl⟩
  obtain ⟨t, b, seq, ht, hb, hseq, fitting, overflowing⟩ := execBuildBoot_eq s a
  refine ⟨t, b, seq, ht, hb, ?_, fitting, overflowing⟩
  rw [hseq, Config.bootIds, List.range'_eq_map_range, List.map_map]
  rfl

/-- Settles O35: in place of the contents each build fits, by W10 and R6, so it answers as O29 to O34 say. -/
theorem replacingBuildsAlwaysComplete : Obligations.ReplacingBuildsAlwaysComplete := by
  intro s
  have fits {id : Nat} {t : Template} (ht : s.config.val.templates[id]? = some t) : s.fits false t.len :=
    fits_replacing (len_bounds s.config ht).2
  refine ⟨fun id c hid => ?_, fun red green blue => ?_, ?_, ?_, ?_, ?_⟩
  · obtain ⟨t, ht⟩ := template_present s.config hid
    exact ⟨_, buildBuildsAnyTemplate.1 s id false c t ht (fits ht), rfl⟩
  · obtain ⟨t, ht, fitting, -⟩ := buildLedBuildsTheColour.1 s false red green blue
    obtain ⟨b, -, h⟩ := fitting (fits ht)
    exact ⟨_, h, rfl⟩
  · obtain ⟨t, v, ht, -, fitting, -⟩ := buildTwistBuildsFromTheParameters.1 s false
    obtain ⟨b, -, h⟩ := fitting (fits ht)
    exact ⟨_, h, rfl⟩
  · obtain ⟨t, p, y, ht, -, -, fitting, -⟩ := buildGimbalBuildsFromTheParameters.1 s false
    obtain ⟨b, -, h⟩ := fitting (fits ht)
    exact ⟨_, h, rfl⟩
  · obtain ⟨body, bytes, -, -, hlen, fitting, -⟩ := execBuildTouch_eq s false
    obtain ⟨-, -, -, -, -, -, hcap⟩ := (checks s.config).ranges
    exact ⟨_, fitting (fits_replacing (hlen ▸ hcap)), rfl⟩
  · obtain ⟨t, b, seq, ht, hb, hseq, fitting, -⟩ := execBuildBoot_eq s false
    have hlen : seq.length = s.config.val.bootLen := by rw [hseq, hb, bootSequence_length _ ht]
    exact ⟨_, fitting (fits_replacing (hlen ▸ (checks s.config).w10.2)), rfl⟩

/-- Settles O39: what answers `OK` has its effect, and what that leaves verifies. -/
theorem verifyHoldsAfterAReplacingBuild : Obligations.VerifyHoldsAfterAReplacingBuild := by
  intro s t i d h ha hi
  obtain ⟨u, hu, -, rfl⟩ | ⟨e, -, -, hne, -⟩ | ⟨n, rfl, -⟩ := exec_answered_cases h ha
  · exact ⟨_, exec_verifyCrc16 (hu.verifies_of_replacing_build hi), rfl, by simp⟩
  · exact absurd rfl hne
  · simp at hi

/-- Settles O40: the boot sequence of EX, in the state after reset. -/
theorem aBootNeedNotVerify : Obligations.ABootNeedNotVerify :=
  ⟨.reset, _, _, rfl, exec_verifyCrc16 (v := false) (by decide +kernel), rfl⟩

/-- A replacing build of a present template has its effect: it completes (O35), and an answer `OK` is no error's. -/
theorem effect_of_replacing_build {s t : State} {i : Instr} (hi : ReplacingBuild i)
    (present : ∀ id a c, i = .build id a c → id.toNat < 38) (h : exec i s = .next t) :
    ∃ u d, Effect s i u d ∧ t = u.succeed d := by
  obtain ⟨build, led, twist, gimbal, touch, boot⟩ := replacingBuildsAlwaysComplete s
  have completes : s.buildCompletes i := by
    obtain ⟨id, c, rfl⟩ | rfl | rfl | ⟨r, g, b, rfl⟩ | rfl | rfl := hi
    exacts [build id c (present id false c rfl), twist, gimbal, led r g b, touch, boot]
  obtain ⟨t', h', ha⟩ := completes
  obtain rfl : t = t' := by simpa [h] using h'
  obtain ⟨u, hu, -, ht⟩ | ⟨e, -, -, hne, -⟩ | ⟨n, rfl, -⟩ := exec_answered_cases h ha
  · exact ⟨u, _, hu, ht⟩
  · exact absurd rfl hne
  · simp [ReplacingBuild] at hi

/-- Settles O41: an absent identifier raises its error in both states, and every other build has its effect in both. -/
theorem buildsDependOnNothingElse : Obligations.BuildsDependOnNothingElse := by
  intro s₁ s₂ t₁ t₂ i config counters params draws hi h₁ h₂
  by_cases absent : ∃ id a c, i = .build id a c ∧ 38 ≤ id.toNat
  · obtain ⟨id, a, c, rfl, hid⟩ := absent
    obtain ⟨-, -, raises, -⟩ := buildBuildsAnyTemplate
    obtain rfl : s₁.raiseError .commandNotFound = t₁ := by simpa [raises s₁ id a c hid] using h₁
    obtain rfl : s₂.raiseError .commandNotFound = t₂ := by simpa [raises s₂ id a c hid] using h₂
    exact ⟨_, _, rfl, rfl, counters, fun h => absurd h (by decide)⟩
  · have present : ∀ id a c, i = .build id a c → id.toNat < 38 := fun id a c h =>
      Nat.lt_of_not_le fun hid => absent ⟨id, a, c, h, hid⟩
    obtain ⟨u₁, d₁, hu₁, rfl⟩ := effect_of_replacing_build hi present h₁
    obtain ⟨u₂, d₂, hu₂, rfl⟩ := effect_of_replacing_build hi present h₂
    obtain ⟨rfl, hctr, hobuf, h16, h8⟩ := hu₁.agree_of_replacing_build config counters params draws hi hu₂
    refine ⟨0#4, d₁, ?_, ?_, hctr, fun _ => ⟨hobuf, h16, h8⟩⟩
    · rw [answered, State.succeed_responses, hu₁.responses_eq]
    · rw [answered, State.succeed_responses, hu₂.responses_eq]

end Sys2Proof.Proofs
end

section
/-! The splitter (spec/42_frame_splitter.md R200 to R204): the chunks by their index, their concatenation, and the
statements about SPLIT built from them. -/

namespace Sys2Proof.Machine

/-- Chunk `k` of the `ceil(N / 8)` chunks is the eight bytes from `8k` on, as far as there are any (R200). -/
theorem splitBytes_getElem?_eq_some_iff {s chunk : List Byte} {k : Nat} :
    (splitBytes s)[k]? = some chunk ↔ k < (s.length + 7) / 8 ∧ (s.drop (8 * k)).take 8 = chunk := by
  simp [splitBytes, chunkCount_eq, frameMax, List.getElem?_eq_some_iff]

/-- The chunks in order are the sequence (R204 (a)). -/
@[simp] theorem splitBytes_flatten (s : List Byte) : (splitBytes s).flatten = s := by
  induction s using split_induction with
  | nil => rfl
  | cut s hs ih => rw [splitBytes_cons hs, List.flatten_cons, ih, List.take_append_drop]

/-- Behind whole frames a sequence is cut as if it stood alone (R204 (c)). -/
theorem splitBytes_append_of_whole {s : List Byte} (whole : s.length % 8 = 0) (t : List Byte) :
    splitBytes (s ++ t) = splitBytes s ++ splitBytes t := by
  induction s using split_induction with
  | nil => rfl
  | cut s hs ih =>
    have hpos : 0 < s.length := List.length_pos_iff.2 hs
    have hlen : 8 ≤ s.length := by omega
    have hrest : (s.drop 8).length % 8 = 0 := by
      rw [List.length_drop]
      omega
    rw [splitBytes_cons (by simp [hs]), splitBytes_cons hs, List.take_append_of_le_length hlen,
      List.drop_append_of_le_length hlen, ih hrest, List.cons_append]

end Sys2Proof.Machine

namespace Sys2Proof.Proofs
open Sys2Proof.Machine

/-- Settles O44: chunk `k` takes eight of the `N - 8k` bytes left, and `ceil(N / 8)` is the last `k` plus one. -/
theorem splitCutsAtEveryEighthByte : Obligations.SplitCutsAtEveryEighthByte := by
  refine fun s => ⟨splitBytes_length s, splitBytes_flatten s, fun k chunk h => ?_⟩
  obtain ⟨hk, rfl⟩ := splitBytes_getElem?_eq_some_iff.1 h
  have hlen : ((s.drop (8 * k)).take 8).length = min 8 (s.length - 8 * k) := by
    rw [List.length_take, List.length_drop]
  refine ⟨fun i => ?_, fun hfull => ?_, fun hlast => ?_⟩
  · rw [List.getElem?_take, List.getElem?_drop]
  · omega
  · omega

/-- Settles O45: the frames of the first sequence are cut off before the second is touched. -/
theorem splitOfWholeFramesIsSeparate : Obligations.SplitOfWholeFramesIsSeparate :=
  fun _ t whole => splitBytes_append_of_whole whole t

/-- Settles O46: the command's meaning with its chunks counted, and form N. -/
theorem splitEmitsTheChunksAsOneBurst : Obligations.SplitEmitsTheChunksAsOneBurst := by
  refine ⟨fun s => ?_, spelled_of_formN rfl rfl⟩
  rw [← splitBytes_length]
  rfl

end Sys2Proof.Proofs
end

section
/-! The telemetry resynchronisation (spec/43_telemetry_resync.md R220 to R222): the frames that match, and the statement
about RX events built from them. -/

namespace Sys2Proof.Machine

theorem CanFrame.fromDevice_iff (f : CanFrame) :
    f.fromDevice ↔ f.ide = false ∧ f.rtr = false ∧ f.id = 0x201#29 ∧ f.dlc = 8 := by
  simp [CanFrame.fromDevice, canId, and_assoc]

/-- Data carry a counter just where they are the marker and the counter's two bytes, low byte first (R221). -/
theorem telemetryCounter_eq_some_iff {data : List Byte} {c : Half} :
    telemetryCounter data = some c ↔ ∃ lo hi, data = telemPrefix ++ [lo, hi] ∧ hi ++ lo = c := by
  constructor
  · intro h
    rw [telemetryCounter] at h
    split at h
    next lo hi htail =>
      obtain ⟨hmarker, hc⟩ := Option.ite_none_right_eq_some.1 h
      refine ⟨lo, hi, ?_, Option.some.inj hc⟩
      rw [← List.take_append_drop counterOffset data, hmarker, htail]
    next => cases h
  · rintro ⟨lo, hi, rfl, rfl⟩
    rfl

/-- A frame resynchronises `joy` just where it is the device's and its data carry a counter, and then to that counter plus
one (R221, R222). -/
theorem resyncValue_eq_some_iff {f : CanFrame} {v : Half} :
    resyncValue f = some v ↔
      f.fromDevice ∧ ∃ lo hi, f.data = telemPrefix ++ [lo, hi] ∧ (hi ++ lo) + 1#16 = v := by
  rw [resyncValue, Option.ite_none_right_eq_some, Option.map_eq_some_iff]
  refine and_congr_right fun _ => ⟨?_, ?_⟩
  · rintro ⟨c, hc, rfl⟩
    obtain ⟨lo, hi, hdata, rfl⟩ := telemetryCounter_eq_some_iff.1 hc
    exact ⟨lo, hi, hdata, rfl⟩
  · rintro ⟨lo, hi, hdata, rfl⟩
    exact ⟨_, telemetryCounter_eq_some_iff.2 ⟨lo, hi, hdata, rfl⟩, rfl⟩

end Sys2Proof.Machine

namespace Sys2Proof.Proofs
open Sys2Proof.Machine

/-- Settles O47: `rxEvent` writes `joy` alone, and a frame that gives a value for it is a match. -/
theorem rxResynchronisesJoyOnly : Obligations.RxResynchronisesJoyOnly := by
  refine ⟨fun s f lo hi hide hrtr hid hdlc hdata => ?_, fun s f hno => ?_⟩
  · have hv : resyncValue f = some ((hi ++ lo) + 1#16) :=
      resyncValue_eq_some_iff.2 ⟨f.fromDevice_iff.2 ⟨hide, hrtr, hid, hdlc⟩, lo, hi, hdata, rfl⟩
    rw [rxEvent_eq, hv, Option.getD_some]
  · have hv : resyncValue f = none := by
      refine Option.eq_none_iff_forall_ne_some.2 fun v hv => hno ?_
      obtain ⟨hdevice, lo, hi, hdata, -⟩ := resyncValue_eq_some_iff.1 hv
      obtain ⟨hide, hrtr, hid, hdlc⟩ := f.fromDevice_iff.1 hdevice
      exact ⟨hide, hrtr, hid, hdlc, lo, hi, hdata⟩
    rw [rxEvent_eq, hv, Option.getD_none]

end Sys2Proof.Proofs
end

section
/-! The host access commands (spec/44_host_access.md R230 to R235): the words of the forms that read an index or use
`SEL` without `A`, what PUSH, READB, READ and SETP do in each of their cases, and the statements built from them. -/

namespace Sys2Proof.Machine

/-! ### Words of the forms X, S and SI (R92, R94) -/

/-- An opcode of form X spells its command in the words that are zero between the opcode and the index. -/
theorem spelled_of_formX {opc : Byte} {make : Half → Instr}
    (row : opcodeRow opc.toNat = some (.x, fun w => make (immHalf w))) (wf : ∀ i, (make i).wf = true) :
    Spelled opc (zeroBits · 55 16) fun w => make (w.extractLsb' 0 16) :=
  spelled_congr (spelled_of_immForm row rfl rfl fun _ => wf _) (fun _ => Iff.rfl) fun w => by
    rw [immHalf, low_of_imm w 0 16 (by omega)]

/-- Where a form uses `SEL` but not `A`, the field checks leave `SEL` and its operand's bits: the four runs of bits that
must be zero are one. -/
theorem fieldChecks_of_usesSel {f : Form} (hsel : f.usesSel = true) (ha : f.usesA = false) (w : CommandWord) :
    (zeroBits w 47 41 ∧ zeroBits w 39 32 ∧ f.unusedZero w = true) ↔ zeroBits w 47 f.immWidth := by
  have himm : f.immWidth ≤ 31 + 1 := by cases f <;> decide
  rw [unusedZero_iff, hsel, ha, ← zeroBits_join w (show f.immWidth ≤ 40 + 1 by omega) (show 40 ≤ 47 by omega),
    ← zeroBits_join w (show f.immWidth ≤ 39 + 1 by omega) (show 39 ≤ 40 by omega),
    ← zeroBits_join w himm (show 31 ≤ 39 by omega)]
  simp only [true_or, true_and, Bool.false_eq_true, false_or]
  tauto

/-- Such a form spells its command in the words that are zero between `SEL` and the operand, where the operands are in
range (R94 (d), (e)). -/
theorem spelled_of_selForm {opc : Byte} {f : Form} {g : CommandWord → Instr} (row : opcodeRow opc.toNat = some (f, g))
    (hsel : f.usesSel = true) (ha : f.usesA = false) :
    Spelled opc (fun w => zeroBits w 47 f.immWidth ∧ (g w).wf = true) g :=
  spelled_congr (spelled_of_row row) (fun w => by simp only [← fieldChecks_of_usesSel hsel ha w, and_assoc]) fun _ => rfl

/-! ### PUSH and READB (R232, R233) -/

theorem exec_push_of_fits {s : State} (b : Byte) (h : s.obuf.length + 1 ≤ s.cap) : exec (.push b) s =
    .next ({ s with obuf := s.obuf ++ [b] }.succeed (zext16 (BitVec.ofNat 16 (s.obuf.length + 1)))) := by
  have happend : s.appendBytes [b] = .ok { s with obuf := s.obuf ++ [b] } := by
    rw [appendBytes_eq, List.length_singleton, if_pos h]
  rw [exec, execPush, happend]
  simp [complete]

theorem exec_push_of_overflow {s : State} (b : Byte) (h : s.cap < s.obuf.length + 1) :
    exec (.push b) s = .next (s.raiseError .bufferOverflow) := by
  have happend : s.appendBytes [b] = .error .bufferOverflow := by
    rw [appendBytes_eq, List.length_singleton, if_neg (by omega)]
  rw [exec, execPush, happend]
  rfl

theorem exec_readb_of_present {s : State} {i : Half} {b : Byte} (h : s.obuf[i.toNat]? = some b) :
    exec (.readb i) s = .next (s.succeed (zext8 b)) := by
  rw [exec, execReadb, State.readByte_eq, h]
  rfl

theorem exec_readb_of_absent {s : State} {i : Half} (h : s.obuf.length ≤ i.toNat) :
    exec (.readb i) s = .next (s.raiseError .indexRange) := by
  rw [exec, execReadb, State.readByte_eq, List.getElem?_eq_none h]
  rfl

/-! ### READ and SETP (R234, R235) -/

/-- The fields of INFO as the one number of R38. -/
theorem State.info_eq (s : State) :
    s.info = BitVec.ofNat 32 (s.config.val.obufCap * 65536 + 8 * 256 + 38) := by
  apply BitVec.eq_of_toNat_eq
  rw [State.info, BitVec.toNat_append, BitVec.toNat_append, ← Nat.shiftLeft_add_eq_or_of_lt (BitVec.isLt _),
    ← Nat.shiftLeft_add_eq_or_of_lt (BitVec.isLt _)]
  simp only [BitVec.toNat_ofNat, Nat.shiftLeft_eq, State.cap_eq, frameMax, nTemplates]
  omega

/-- The register numbers a word may spell (R94 (d)). -/
theorem wf_read_iff (r : Byte) : (Instr.read r).wf = true ↔ r.toNat ≤ 0x0B := by
  rw [Instr.wf, decide_eq_true_iff, BitVec.le_def]
  rfl

/-- The parameter indices a word may spell (R94 (e)). -/
theorem wf_setp_iff (k : Byte) (v : Word) : (Instr.setp k v).wf = true ↔ k.toNat ≤ 2 := by
  rw [Instr.wf, decide_eq_true_iff, BitVec.le_def]
  rfl

theorem exec_read_of_register {s : State} {r : Byte} {v : Word} (h : s.register r = some v) :
    exec (.read r) s = .next (s.answerRead v) := by
  rw [exec, execRead, h]

theorem exec_read_of_reserved (s : State) {r : Byte} (h : 0x0B < r.toNat) :
    exec (.read r) s = .next (s.raiseError .illegalOp) := by
  rw [exec, execRead, (register_eq_none_iff s r).2 h]

theorem exec_setp_of_reserved (s : State) {k : Byte} (v : Word) (h : 2 < k.toNat) :
    exec (.setp k v) s = .next (s.raiseError .illegalOp) := by
  rw [exec, execSetp, (setParam_eq_none_iff s k v).2 h]
  rfl

end Sys2Proof.Machine

namespace Sys2Proof.Proofs
open Sys2Proof.Machine

/-- Settles O12: the command's meaning, and form N. -/
theorem nopOnlyReportsSuccess : Obligations.NopOnlyReportsSuccess :=
  ⟨fun _ => rfl, spelled_of_formN rfl rfl⟩

/-- Settles O13: the command's meaning, and form N. -/
theorem clearEmptiesTheBuffer : Obligations.ClearEmptiesTheBuffer :=
  ⟨fun _ => rfl, spelled_of_formN rfl rfl⟩

/-- Settles O14: both sides of the capacity boundary, and form B. -/
theorem pushAppendsItsByte : Obligations.PushAppendsItsByte :=
  ⟨fun _ b => exec_push_of_fits b, fun _ b => exec_push_of_overflow b, spelled_of_formB rfl fun _ => rfl⟩

/-- Settles O15: an index with a byte, one without, and form X. -/
theorem readbReadsOneByte : Obligations.ReadbReadsOneByte :=
  ⟨fun _ _ _ => exec_readb_of_present, fun _ _ => exec_readb_of_absent, spelled_of_formX rfl fun _ => rfl⟩

/-- Settles O16: the twelve registers in turn, INFO put together from its fields, and form S with the range of its
number. -/
theorem readReturnsTheRegister : Obligations.ReadReturnsTheRegister := by
  refine ⟨fun s => ?_, fun s r => exec_read_of_reserved s, ?_⟩
  · have info : s.register 0x0B#8 = some (BitVec.ofNat 32 (s.config.val.obufCap * 65536 + 8 * 256 + 38)) :=
      congrArg some s.info_eq
    simp only [List.forall_mem_cons]
    exact ⟨rfl, rfl, rfl, rfl, rfl, rfl, rfl, rfl, rfl, rfl, rfl, exec_read_of_register info, nofun⟩
  · exact spelled_congr (spelled_of_selForm (f := .s) rfl rfl rfl)
      (fun w => and_congr_right fun _ => wf_read_iff (selField w)) fun _ => rfl

/-- Settles O17: the three parameter registers, the indices above them, and form SI with the range of its index. -/
theorem setpLoadsItsParameter : Obligations.SetpLoadsItsParameter := by
  refine ⟨fun s v => ⟨rfl, rfl, rfl⟩, fun s k v => exec_setp_of_reserved s v, ?_⟩
  exact spelled_congr (spelled_of_selForm (f := .si) rfl rfl rfl)
    (fun w => and_congr_right fun _ => wf_setp_iff (selField w) (immField w)) fun _ => rfl

end Sys2Proof.Proofs
end

section
/-! Errors and the order of inputs (spec/60_exceptions.md R260 to R266): what an error answer says of the state, a command
and a telemetry frame in either order, and the statements built from them. -/

namespace Sys2Proof.Machine

/-! ### Errors (R260) -/

/-- A word answered with a nonzero code, decoded or not, has raised that code's error and done nothing else. -/
theorem commandStep_of_nonzero_code {w : CommandWord} {s t : State} {code : BitVec 4} {data : Word}
    (h : commandStep w s = .next t) (ha : answered s t code data) (hne : code ≠ 0#4) :
    ∃ e, code = e.code ∧ data = 0#32 ∧ t = s.raiseError e := by
  cases hw : decode w with
  | error =>
    obtain rfl : s.raiseError .illegalOp = t := by simpa [commandStep, hw] using h
    obtain ⟨rfl, rfl⟩ : ErrCode.illegalOp.code = code ∧ 0#32 = data := by simpa [answered] using ha
    exact ⟨_, rfl, rfl, rfl⟩
  | ok i =>
    rw [Proofs.commandStep_of_decode_ok hw] at h
    obtain ⟨-, -, h0, -⟩ | ⟨e, hcode, hdata, -, ht⟩ | ⟨-, -, h0, -⟩ := exec_answered_cases h ha
    · exact absurd h0 hne
    · exact ⟨e, hcode, hdata, ht⟩
    · exact absurd h0 hne

/-! ### A command and a telemetry frame in either order (R264) -/

/-- Inputs are the environment's: no effect takes or adds one (R20). -/
theorem Effect.inputs_eq {s u : State} {i : Instr} {d : Word} (h : Effect s i u d) : u.inputs = s.inputs := by
  cases h <;> rfl

theorem exec_inputs {i : Instr} {s t : State} (h : exec i s = .next t) : t.inputs = s.inputs := by
  obtain ⟨u, d, hu, rfl⟩ | ⟨e, -, rfl⟩ | ⟨n, v, -, -, rfl⟩ := exec_cases h
  · exact hu.inputs_eq
  · rfl
  · rfl

section Order

variable {s t : State} {f : CanFrame} {v : Half} {w : CommandWord} {i : Instr} {rest : List Input}

/-- The step of a matching frame (R221). -/
theorem step_of_matching_rx (hv : resyncValue f = some v) (h : s.inputs = .rx f :: rest) :
    step s = .next ((s.taken rest).setCtr .joy v) := by
  rw [Proofs.step_of_rx h, rxEvent, hv]

/-- The step of a word that decodes (R90). -/
theorem step_of_command (hw : decode w = .ok i) (h : s.inputs = .command w :: rest) :
    step s = exec i (s.taken rest) := by
  rw [Proofs.step_of_delivers h, Proofs.commandStep_of_decode_ok hw]

/-- Frame first: the command runs with the frame's value in `joy`. -/
theorem stepsTwice_rx_command (hv : resyncValue f = some v) (hw : decode w = .ok i)
    (h : exec i ((s.taken rest).setCtr .joy v) = .next t) : s.stepsTwice (.rx f) (.command w) rest t :=
  ⟨_, step_of_matching_rx hv rfl, (step_of_command hw rfl).trans h⟩

/-- Command first: the frame's value overwrites what the command left in `joy`, and nothing else. -/
theorem stepsTwice_command_rx (hv : resyncValue f = some v) (hw : decode w = .ok i)
    (h : exec i (s.taken (.rx f :: rest)) = .next t) :
    s.stepsTwice (.command w) (.rx f) rest ((t.taken rest).setCtr .joy v) :=
  ⟨t, (step_of_command hw rfl).trans h, step_of_matching_rx hv (exec_inputs h)⟩

end Order

/-! ### The builds of the `joy` family (R175, R181, R184) -/

/-- What a build places stands from `base` on, whatever is below it (R93). -/
theorem placed_from_base (s : State) (a : Bool) (bytes : List Byte) (k : Nat) :
    (s.placed a bytes).obuf[s.base a + k]? = bytes[k]? := by
  rw [State.placed_obuf, ← State.kept_eq, State.base, List.getElem?_append_right (Nat.le_add_right ..),
    Nat.add_sub_cancel_left]

section JoyBuilds

variable {s : State} {a : Bool}

/-- BUILD_TWIST where its command fits. -/
theorem exec_buildTwist_of_fits {t : Template} (ht : s.config.val.templates[s.config.val.twistId]? = some t)
    (hf : s.fits a t.len) :
    ∃ u, exec (.buildTwist a) s = .next u ∧ u.ctrJoy = s.ctrJoy + 1#16 ∧
      u.obuf = s.kept a ++ (buildCmd t s.ctrJoy (some (twistSource s.config.val t s.twistValues))).bytes := by
  obtain ⟨t', v, ht', rfl, fitting, -⟩ := Proofs.buildTwistBuildsFromTheParameters.1 s a
  obtain rfl : t = t' := Option.some.inj (ht.symm.trans ht')
  obtain ⟨b, rfl, h⟩ := fitting hf
  exact ⟨_, h, rfl, rfl⟩

/-- BUILD_TWIST where it does not. -/
theorem exec_buildTwist_of_overflow {t : Template} (ht : s.config.val.templates[s.config.val.twistId]? = some t)
    (hf : ¬s.fits a t.len) : exec (.buildTwist a) s = .next (s.raiseError .bufferOverflow) := by
  obtain ⟨t', v, ht', -, -, overflowing⟩ := Proofs.buildTwistBuildsFromTheParameters.1 s a
  obtain rfl : t = t' := Option.some.inj (ht.symm.trans ht')
  exact overflowing hf

/-- BUILD_TOUCH where its command fits: its counter bytes stand six and seven bytes behind the base. -/
theorem exec_buildTouch_of_fits (hf : s.fits a (10 + s.config.val.touchB.length)) :
    ∃ u, exec (.buildTouch a) s = .next u ∧ u.ctrJoy = s.ctrJoy + 1#16 ∧
      u.readByte (s.base a + 6) = some (s.ctrJoy.extractLsb' 0 8) ∧
      u.readByte (s.base a + 7) = some (s.ctrJoy.extractLsb' 8 8) := by
  obtain ⟨head, tail, -, hhead, -, first, rfl, body, rfl, last, -, bytes, rfl, hlen, -, fitting, -⟩ :=
    Proofs.buildTouchBuildsBothArrays.1 s a
  refine ⟨_, fitting (hlen ▸ hf), rfl, (placed_from_base s a _ 6).trans ?_, (placed_from_base s a _ 7).trans ?_⟩ <;>
    simp [List.getElem?_append_right, hhead]

/-- BUILD_TOUCH where it does not. -/
theorem exec_buildTouch_of_overflow (hf : ¬s.fits a (10 + s.config.val.touchB.length)) :
    exec (.buildTouch a) s = .next (s.raiseError .bufferOverflow) := by
  obtain ⟨body, bytes, -, -, hlen, -, overflowing⟩ := execBuildTouch_eq s a
  exact overflowing (hlen ▸ hf)

end JoyBuilds

end Sys2Proof.Machine

namespace Sys2Proof.Proofs
open Sys2Proof.Machine

/-- Settles O8: the step is an error's, and that writes `STATUS.ERR` alone. -/
theorem errorsArePrecise : Obligations.ErrorsArePrecise := by
  intro s w rest t code data hs h ha hne
  rw [step_of_delivers hs] at h
  obtain ⟨e, rfl, rfl, rfl⟩ := commandStep_of_nonzero_code h ha hne
  exact ⟨rfl, statusErr_setErr s.status e, upper_setErr s.status e, rfl⟩

/-- Settles O57: each kind of input is worked off, and a word either fails decode or runs a command, which answers. -/
theorem everyStepGoesOn : Obligations.EveryStepGoesOn := by
  intro s
  cases hs : s.inputs with
  | nil => exact ⟨_, step_of_no_input hs⟩
  | cons input rest =>
    cases input with
    | rx f => exact ⟨_, step_of_rx hs⟩
    | command w =>
      cases hw : decode w with
      | error e => exact ⟨_, decode_error_raises hw s rest hs⟩
      | ok i =>
        obtain ⟨t, _, h, -⟩ := eachCommandAnswersOnce i (s.taken rest)
        exact ⟨t, (step_of_command hw hs).trans h⟩

/-- Settles O49: the two orders run the command on two states that differ in `joy` and the inputs alone, so it fits in
both or in neither. -/
theorem eitherOrderOfJoyBuildsAndTelemetry : Obligations.EitherOrderOfJoyBuildsAndTelemetry := by
  intro s f d w rest a hv
  have plusTwo : d + 1#16 + 1#16 = d + 2#16 := BitVec.add_assoc d 1#16 1#16
  refine ⟨fun hw => ?_, fun hw => ⟨fun hf => ?_, fun hf => ?_⟩⟩
  · obtain ⟨t, ht⟩ := twist_present s.config
    refine ⟨t, ht, fun hf => ?_, fun hf => ?_⟩
    · obtain ⟨u₁, h₁, joy, obuf₁⟩ := exec_buildTwist_of_fits (s := (s.taken rest).setCtr .joy (d + 1#16)) ht hf
      obtain ⟨u₂, h₂, -, obuf₂⟩ := exec_buildTwist_of_fits (s := s.taken (.rx f :: rest)) ht hf
      exact ⟨⟨u₁, stepsTwice_rx_command hv hw h₁, joy.trans plusTwo, obuf₁⟩,
        _, stepsTwice_command_rx hv hw h₂, rfl, obuf₂⟩
    · exact ⟨⟨_, stepsTwice_rx_command hv hw (exec_buildTwist_of_overflow ht hf), rfl, rfl⟩,
        _, stepsTwice_command_rx hv hw (exec_buildTwist_of_overflow ht hf), rfl, rfl⟩
  · obtain ⟨u₁, h₁, joy, bytes₁⟩ := exec_buildTouch_of_fits (s := (s.taken rest).setCtr .joy (d + 1#16)) hf
    obtain ⟨u₂, h₂, -, bytes₂⟩ := exec_buildTouch_of_fits (s := s.taken (.rx f :: rest)) hf
    exact ⟨⟨u₁, stepsTwice_rx_command hv hw h₁, joy.trans plusTwo, bytes₁⟩,
      _, stepsTwice_command_rx hv hw h₂, rfl, bytes₂⟩
  · exact ⟨⟨_, stepsTwice_rx_command hv hw (exec_buildTouch_of_overflow hf), rfl, rfl⟩,
      _, stepsTwice_command_rx hv hw (exec_buildTouch_of_overflow hf), rfl, rfl⟩

/-- Settles O48: O49 for `A = 0`, where the base is 0 and the touch command fits the capacity (R6). -/
theorem eitherOrderOfTouchAndTelemetry : Obligations.EitherOrderOfTouchAndTelemetry := by
  intro s f d w rest hv hw
  obtain ⟨-, -, -, -, -, -, hcap⟩ := (checks s.config).ranges
  obtain ⟨-, touch⟩ := eitherOrderOfJoyBuildsAndTelemetry s f d w rest false hv
  have hbase : s.base false = 0 := rfl
  rw [hbase, Nat.zero_add, Nat.zero_add] at touch
  obtain ⟨⟨u₁, ⟨t₁, first₁, second₁⟩, state₁⟩, u₂, ⟨t₂, first₂, second₂⟩, state₂⟩ :=
    (touch hw).1 (fits_replacing hcap)
  exact ⟨⟨t₁, u₁, first₁, second₁, state₁⟩, t₂, u₂, first₂, second₂, state₂⟩

end Sys2Proof.Proofs
end
